-- ==== Sys2Proof/Word.lean ====
section
/-! DEFINITION. The machine word and the byte, and the reduction `w16` (00_scope.md R8, R9). -/

namespace Sys2Proof

/-- The native unsigned 16-bit data unit: registers, memory cells and results are words (R7, R9, R15). -/
abbrev Word := BitVec 16

/-- A byte of the program image file, the only place where bytes appear (R64, R68). -/
abbrev Byte := BitVec 8

/-- `w16(v) = v mod 65536` on the unbounded non-negative integers (R9). -/
def w16 (n : Nat) : Word := BitVec.ofNat 16 n

end Sys2Proof
end

