-- ==== Sys2Proof/Config.lean ====
section
/-! DEFINITION. The implementation parameters of 00_scope.md R7: the fixed numbers, and the two OPEN parameters that
no core rule reads, each an uninterpreted constant. -/

namespace Sys2Proof

/-- `UNIMPL_EXT_POLICY` (R7, R225): what an executed unimplemented extended opcode does. It is a construction
parameter of the block, so a `State` carries the value its block was built with. -/
inductive UnimplExtPolicy where
  | nop
  | fault
deriving DecidableEq, Repr

namespace Config

/-- `MEM_WORDS` (R7, R60). -/
def memWords : Nat := 65536

/-- `SCREEN_BASE` (R7, R70). -/
def screenBase : Nat := 0xE000

/-- `SCREEN_WORDS` (R7, R66). -/
def screenWords : Nat := 504

/-- `SCREEN_COLS` (R7, R249). -/
def screenCols : Nat := 36

/-- `SCREEN_ROWS` (R7, R249). -/
def screenRows : Nat := 14

/-- The default of `UNIMPL_EXT_POLICY` (R7, R225): the reference's fall-through without effect. -/
def unimplExtPolicyDefault : UnimplExtPolicy := .nop

/-- `SCREEN_LAYOUT`, OPEN (R7, R249): the word offset of the cell at (column, row). FREE VALUE: no body. -/
opaque screenLayout : Nat → Nat → Nat

/-- `NUM_READERS - 1`, OPEN (R7, R250). FREE VALUE: no body. -/
opaque furtherReaders : Nat

/-- `NUM_READERS ≥ 1` (R6, R7). -/
def numReaders : Nat := furtherReaders + 1

end Config

end Sys2Proof
end

