-- ==== Sys2Proof/Syntax.lean ====
section
/-! DEFINITION. The syntax of instructions: the eight general-purpose registers, the operand forms of the mode table
(30_encoding.md R95) with the next word a form consumes, and one constructor per row of the opcode table. -/

namespace Sys2Proof

/-- The general-purpose registers in the order of their index 0 to 7 (R30, R31). -/
inductive GpReg where
  | a | b | c | x | y | z | i | j
deriving DecidableEq, Repr

/-- The operand forms of R95, one table for both positions. A form that consumes a next word carries it. -/
inductive Operand where
  /-- Modes 0x00 to 0x07: the register itself. -/
  | reg (r : GpReg)
  /-- Modes 0x08 to 0x0F: memory at the address in the register. -/
  | ind (r : GpReg)
  /-- Modes 0x10 to 0x17: memory at next word + register. -/
  | idx (r : GpReg) (n : Word)
  /-- Mode 0x18. -/
  | pop
  /-- Mode 0x19. -/
  | peek
  /-- Mode 0x1A. -/
  | push
  /-- Mode 0x1B. -/
  | sp
  /-- Mode 0x1C. -/
  | pc
  /-- Mode 0x1D. -/
  | o
  /-- Mode 0x1E: memory at the next word. -/
  | mem (n : Word)
  /-- Mode 0x1F: the next word itself, or memory at it when written. -/
  | lit (n : Word)
  /-- Modes 0x20 to 0x3F: the literal 0 to 31 (the bound is checked in `Operand.wf`). -/
  | short (v : Word)
deriving DecidableEq, Repr

/-- One constructor per row of spec/opcode_table.json: operand A first, operand B second (R104, R105). An extended
instruction has the lone operand B (R92). -/
inductive Instr where
  | set (a b : Operand)
  | add (a b : Operand)
  | sub (a b : Operand)
  | mul (a b : Operand)
  | div (a b : Operand)
  | mod (a b : Operand)
  | shl (a b : Operand)
  | shr (a b : Operand)
  | and (a b : Operand)
  | bor (a b : Operand)
  | xor (a b : Operand)
  | ife (a b : Operand)
  | ifn (a b : Operand)
  | ifg (a b : Operand)
  | ifb (a b : Operand)
  | jsr (b : Operand)
  | extUnimpl00 (b : Operand)
  | extUnimpl02 (b : Operand)
  | extUnimpl03 (b : Operand)
  | extUnimpl04 (b : Operand)
  | extUnimpl05 (b : Operand)
  | extUnimpl06 (b : Operand)
  | extUnimpl07 (b : Operand)
  | extUnimpl08 (b : Operand)
  | extUnimpl09 (b : Operand)
  | extUnimpl0A (b : Operand)
  | extUnimpl0B (b : Operand)
  | extUnimpl0C (b : Operand)
  | extUnimpl0D (b : Operand)
  | extUnimpl0E (b : Operand)
  | extUnimpl0F (b : Operand)
  | extUnimpl10 (b : Operand)
  | extUnimpl11 (b : Operand)
  | extUnimpl12 (b : Operand)
  | extUnimpl13 (b : Operand)
  | extUnimpl14 (b : Operand)
  | extUnimpl15 (b : Operand)
  | extUnimpl16 (b : Operand)
  | extUnimpl17 (b : Operand)
  | extUnimpl18 (b : Operand)
  | extUnimpl19 (b : Operand)
  | extUnimpl1A (b : Operand)
  | extUnimpl1B (b : Operand)
  | extUnimpl1C (b : Operand)
  | extUnimpl1D (b : Operand)
  | extUnimpl1E (b : Operand)
  | extUnimpl1F (b : Operand)
  | extUnimpl20 (b : Operand)
  | extUnimpl21 (b : Operand)
  | extUnimpl22 (b : Operand)
  | extUnimpl23 (b : Operand)
  | extUnimpl24 (b : Operand)
  | extUnimpl25 (b : Operand)
  | extUnimpl26 (b : Operand)
  | extUnimpl27 (b : Operand)
  | extUnimpl28 (b : Operand)
  | extUnimpl29 (b : Operand)
  | extUnimpl2A (b : Operand)
  | extUnimpl2B (b : Operand)
  | extUnimpl2C (b : Operand)
  | extUnimpl2D (b : Operand)
  | extUnimpl2E (b : Operand)
  | extUnimpl2F (b : Operand)
  | extUnimpl30 (b : Operand)
  | extUnimpl31 (b : Operand)
  | extUnimpl32 (b : Operand)
  | extUnimpl33 (b : Operand)
  | extUnimpl34 (b : Operand)
  | extUnimpl35 (b : Operand)
  | extUnimpl36 (b : Operand)
  | extUnimpl37 (b : Operand)
  | extUnimpl38 (b : Operand)
  | extUnimpl39 (b : Operand)
  | extUnimpl3A (b : Operand)
  | extUnimpl3B (b : Operand)
  | extUnimpl3C (b : Operand)
  | extUnimpl3D (b : Operand)
  | extUnimpl3E (b : Operand)
  | extUnimpl3F (b : Operand)
deriving DecidableEq, Repr

end Sys2Proof
end

