-- ==== Sys2Proof/WellFormed.lean ====
section
/-! DEFINITION. Well-formed instructions: every short literal fits its five bits (30_encoding.md R96, R106). -/

namespace Sys2Proof

/-- A short literal is 0 to 31 (R96); every other form is well-formed by its type. -/
def Operand.wf : Operand → Bool
  | .short v => decide (v.toNat < 32)
  | .reg _ | .ind _ | .idx _ _ | .pop | .peek | .push | .sp | .pc | .o | .mem _ | .lit _ => true

/-- Every combination of well-formed operands is a legal instruction (R100, R103). -/
def Instr.wf : Instr → Bool
  | .set a b => a.wf && b.wf
  | .add a b => a.wf && b.wf
  | .sub a b => a.wf && b.wf
  | .mul a b => a.wf && b.wf
  | .div a b => a.wf && b.wf
  | .mod a b => a.wf && b.wf
  | .shl a b => a.wf && b.wf
  | .shr a b => a.wf && b.wf
  | .and a b => a.wf && b.wf
  | .bor a b => a.wf && b.wf
  | .xor a b => a.wf && b.wf
  | .ife a b => a.wf && b.wf
  | .ifn a b => a.wf && b.wf
  | .ifg a b => a.wf && b.wf
  | .ifb a b => a.wf && b.wf
  | .jsr b => b.wf
  | .extUnimpl00 b => b.wf
  | .extUnimpl02 b => b.wf
  | .extUnimpl03 b => b.wf
  | .extUnimpl04 b => b.wf
  | .extUnimpl05 b => b.wf
  | .extUnimpl06 b => b.wf
  | .extUnimpl07 b => b.wf
  | .extUnimpl08 b => b.wf
  | .extUnimpl09 b => b.wf
  | .extUnimpl0A b => b.wf
  | .extUnimpl0B b => b.wf
  | .extUnimpl0C b => b.wf
  | .extUnimpl0D b => b.wf
  | .extUnimpl0E b => b.wf
  | .extUnimpl0F b => b.wf
  | .extUnimpl10 b => b.wf
  | .extUnimpl11 b => b.wf
  | .extUnimpl12 b => b.wf
  | .extUnimpl13 b => b.wf
  | .extUnimpl14 b => b.wf
  | .extUnimpl15 b => b.wf
  | .extUnimpl16 b => b.wf
  | .extUnimpl17 b => b.wf
  | .extUnimpl18 b => b.wf
  | .extUnimpl19 b => b.wf
  | .extUnimpl1A b => b.wf
  | .extUnimpl1B b => b.wf
  | .extUnimpl1C b => b.wf
  | .extUnimpl1D b => b.wf
  | .extUnimpl1E b => b.wf
  | .extUnimpl1F b => b.wf
  | .extUnimpl20 b => b.wf
  | .extUnimpl21 b => b.wf
  | .extUnimpl22 b => b.wf
  | .extUnimpl23 b => b.wf
  | .extUnimpl24 b => b.wf
  | .extUnimpl25 b => b.wf
  | .extUnimpl26 b => b.wf
  | .extUnimpl27 b => b.wf
  | .extUnimpl28 b => b.wf
  | .extUnimpl29 b => b.wf
  | .extUnimpl2A b => b.wf
  | .extUnimpl2B b => b.wf
  | .extUnimpl2C b => b.wf
  | .extUnimpl2D b => b.wf
  | .extUnimpl2E b => b.wf
  | .extUnimpl2F b => b.wf
  | .extUnimpl30 b => b.wf
  | .extUnimpl31 b => b.wf
  | .extUnimpl32 b => b.wf
  | .extUnimpl33 b => b.wf
  | .extUnimpl34 b => b.wf
  | .extUnimpl35 b => b.wf
  | .extUnimpl36 b => b.wf
  | .extUnimpl37 b => b.wf
  | .extUnimpl38 b => b.wf
  | .extUnimpl39 b => b.wf
  | .extUnimpl3A b => b.wf
  | .extUnimpl3B b => b.wf
  | .extUnimpl3C b => b.wf
  | .extUnimpl3D b => b.wf
  | .extUnimpl3E b => b.wf
  | .extUnimpl3F b => b.wf

end Sys2Proof
end

