-- ==== Sys2Proof/Decode.lean ====
section
/-! DEFINITION. The decoder and the encoder of 30_encoding.md. The decoder is total: each of the 65536 instruction
words means exactly one instruction (R93, R102), so the only lists of words it rejects are those that end before the
instruction does. -/

namespace Sys2Proof

/-- Why a list of words is not decoded. -/
inductive DecodeError where
  /-- The list is empty. -/
  | noInstructionWord
  /-- The list ends before the instruction's last next word (R98). -/
  | missingNextWord
deriving DecidableEq, Repr

/-- The structured value of R93: the fields of one instruction word. -/
inductive Fields where
  | base (op : BitVec 4) (ma mb : BitVec 6)
  | ext (eop mb : BitVec 6)
deriving DecidableEq, Repr

/-- An instruction by its opcode number and its operands, the shape both directions of the encoding go through. -/
inductive Form where
  | base (op : BitVec 4) (a b : Operand)
  | ext (eop : BitVec 6) (b : Operand)
deriving DecidableEq, Repr

/-- Register of an index 0 to 7 (R31). -/
def GpReg.ofIndex (i : BitVec 6) : GpReg :=
  match i.toNat with
  | 0 => .a
  | 1 => .b
  | 2 => .c
  | 3 => .x
  | 4 => .y
  | 5 => .z
  | 6 => .i
  | _ => .j

/-- Index of a register (R31). -/
def GpReg.index : GpReg → BitVec 6
  | .a => 0
  | .b => 1
  | .c => 2
  | .x => 3
  | .y => 4
  | .z => 5
  | .i => 6
  | .j => 7

/-- Bits `hi = lo + len - 1` down to `lo` of a word (R8). -/
def bits (w : Word) (lo len : Nat) : BitVec len := w.extractLsb' lo len

/-- `decode(w)` of R93: base format when the low four bits are not 0 (R91), else extended format (R92). -/
def decodeFields (w : Word) : Fields :=
  if bits w 0 4 ≠ 0#4 then .base (bits w 0 4) (bits w 4 6) (bits w 10 6)
  else .ext (bits w 4 6) (bits w 10 6)

/-- `needsWord(m)` of R98. -/
def needsWord (m : BitVec 6) : Bool :=
  decide (0x10#6 ≤ m ∧ m ≤ 0x17#6) || decide (m = 0x1E#6) || decide (m = 0x1F#6)

/-- How many next words the fields ask for: `len(w) - 1` of R98. The extended opcode field asks for none. -/
def Fields.nextWords : Fields → Nat
  | .base _ ma mb => (needsWord ma).toNat + (needsWord mb).toNat
  | .ext _ mb => (needsWord mb).toNat

/-- `len(w)` of R98: the length follows from the instruction word alone. -/
def lengthOf (w : Word) : Nat := 1 + (decodeFields w).nextWords

/-- The operand of mode `m` (R95), with the next word `n` where the mode consumes one. -/
def operandOf (m : BitVec 6) (n : Word) : Operand :=
  if m < 0x08#6 then .reg (.ofIndex m)
  else if m < 0x10#6 then .ind (.ofIndex (m - 0x08#6))
  else if m < 0x18#6 then .idx (.ofIndex (m - 0x10#6)) n
  else if m = 0x18#6 then .pop
  else if m = 0x19#6 then .peek
  else if m = 0x1A#6 then .push
  else if m = 0x1B#6 then .sp
  else if m = 0x1C#6 then .pc
  else if m = 0x1D#6 then .o
  else if m = 0x1E#6 then .mem n
  else if m = 0x1F#6 then .lit n
  else .short ((m - 0x20#6).setWidth 16)

/-- The base opcode map of R100. It is asked for `op ≠ 0` only (R93), so the last arm is 0xF. -/
def baseInstr (op : BitVec 4) (a b : Operand) : Instr :=
  match op.toNat with
  | 0x1 => .set a b
  | 0x2 => .add a b
  | 0x3 => .sub a b
  | 0x4 => .mul a b
  | 0x5 => .div a b
  | 0x6 => .mod a b
  | 0x7 => .shl a b
  | 0x8 => .shr a b
  | 0x9 => .and a b
  | 0xA => .bor a b
  | 0xB => .xor a b
  | 0xC => .ife a b
  | 0xD => .ifn a b
  | 0xE => .ifg a b
  | _ => .ifb a b

/-- The extended opcode map of R101. The field has six bits, so the last arm is 0x3F. -/
def extInstr (eop : BitVec 6) (b : Operand) : Instr :=
  match eop.toNat with
  | 0x00 => .extUnimpl00 b
  | 0x01 => .jsr b
  | 0x02 => .extUnimpl02 b
  | 0x03 => .extUnimpl03 b
  | 0x04 => .extUnimpl04 b
  | 0x05 => .extUnimpl05 b
  | 0x06 => .extUnimpl06 b
  | 0x07 => .extUnimpl07 b
  | 0x08 => .extUnimpl08 b
  | 0x09 => .extUnimpl09 b
  | 0x0A => .extUnimpl0A b
  | 0x0B => .extUnimpl0B b
  | 0x0C => .extUnimpl0C b
  | 0x0D => .extUnimpl0D b
  | 0x0E => .extUnimpl0E b
  | 0x0F => .extUnimpl0F b
  | 0x10 => .extUnimpl10 b
  | 0x11 => .extUnimpl11 b
  | 0x12 => .extUnimpl12 b
  | 0x13 => .extUnimpl13 b
  | 0x14 => .extUnimpl14 b
  | 0x15 => .extUnimpl15 b
  | 0x16 => .extUnimpl16 b
  | 0x17 => .extUnimpl17 b
  | 0x18 => .extUnimpl18 b
  | 0x19 => .extUnimpl19 b
  | 0x1A => .extUnimpl1A b
  | 0x1B => .extUnimpl1B b
  | 0x1C => .extUnimpl1C b
  | 0x1D => .extUnimpl1D b
  | 0x1E => .extUnimpl1E b
  | 0x1F => .extUnimpl1F b
  | 0x20 => .extUnimpl20 b
  | 0x21 => .extUnimpl21 b
  | 0x22 => .extUnimpl22 b
  | 0x23 => .extUnimpl23 b
  | 0x24 => .extUnimpl24 b
  | 0x25 => .extUnimpl25 b
  | 0x26 => .extUnimpl26 b
  | 0x27 => .extUnimpl27 b
  | 0x28 => .extUnimpl28 b
  | 0x29 => .extUnimpl29 b
  | 0x2A => .extUnimpl2A b
  | 0x2B => .extUnimpl2B b
  | 0x2C => .extUnimpl2C b
  | 0x2D => .extUnimpl2D b
  | 0x2E => .extUnimpl2E b
  | 0x2F => .extUnimpl2F b
  | 0x30 => .extUnimpl30 b
  | 0x31 => .extUnimpl31 b
  | 0x32 => .extUnimpl32 b
  | 0x33 => .extUnimpl33 b
  | 0x34 => .extUnimpl34 b
  | 0x35 => .extUnimpl35 b
  | 0x36 => .extUnimpl36 b
  | 0x37 => .extUnimpl37 b
  | 0x38 => .extUnimpl38 b
  | 0x39 => .extUnimpl39 b
  | 0x3A => .extUnimpl3A b
  | 0x3B => .extUnimpl3B b
  | 0x3C => .extUnimpl3C b
  | 0x3D => .extUnimpl3D b
  | 0x3E => .extUnimpl3E b
  | _ => .extUnimpl3F b

/-- The instruction whose word is `w`, where `n1` and `n2` are the two words after it. Operand A's next word comes
first (R99); the extended opcode field is never an operand (R98). Words the instruction does not consume are unused. -/
def decodeAt (w n1 n2 : Word) : Instr :=
  match decodeFields w with
  | .base op ma mb => baseInstr op (operandOf ma n1) (operandOf mb (if needsWord ma then n2 else n1))
  | .ext eop mb => extInstr eop (operandOf mb n1)

/-- Decode the instruction at the head of a list of words and give the words after it. -/
def decode : List Word → Except DecodeError (Instr × List Word)
  | [] => .error .noInstructionWord
  | w :: ws =>
    if ws.length < (decodeFields w).nextWords then .error .missingNextWord
    else .ok (decodeAt w (ws.getD 0 0#16) (ws.getD 1 0#16), ws.drop (decodeFields w).nextWords)

/-- The `i`-th 16-bit word of a number read with bit 0 the least significant bit of the first word. -/
def tableWord (w i : Nat) : Word := w16 (w / 2 ^ (16 * i))

/-- The host's question about a row of the opcode table: the instruction whose bits are `w`, the bits from `nbits` on
being 0. -/
def decodeTableWord (nbits w : Nat) : Option Instr :=
  let v := w % 2 ^ nbits
  match decode [tableWord v 0, tableWord v 1, tableWord v 2] with
  | .ok (i, _) => some i
  | .error _ => none

/-- The mode number of an operand (R95). -/
def Operand.mode : Operand → BitVec 6
  | .reg r => r.index
  | .ind r => 0x08#6 + r.index
  | .idx r _ => 0x10#6 + r.index
  | .pop => 0x18#6
  | .peek => 0x19#6
  | .push => 0x1A#6
  | .sp => 0x1B#6
  | .pc => 0x1C#6
  | .o => 0x1D#6
  | .mem _ => 0x1E#6
  | .lit _ => 0x1F#6
  | .short v => 0x20#6 + v.setWidth 6

/-- The next words an operand consumes, none or one (R95, R98). -/
def Operand.words : Operand → List Word
  | .idx _ n | .mem n | .lit n => [n]
  | .reg _ | .ind _ | .pop | .peek | .push | .sp | .pc | .o | .short _ => []

/-- `encBase` of R94, `(b << 10) | (a << 4) | o` (R91). -/
def encBase (op : BitVec 4) (a b : BitVec 6) : Word :=
  (b.setWidth 16 <<< 10) ||| (a.setWidth 16 <<< 4) ||| op.setWidth 16

/-- `encExt` of R94, `(b << 10) | (e << 4)`: the low four bits are 0 (R92). -/
def encExt (eop b : BitVec 6) : Word := (b.setWidth 16 <<< 10) ||| (eop.setWidth 16 <<< 4)

/-- Opcode number and operands of every instruction (R100, R101). -/
def Instr.form : Instr → Form
  | .set a b => .base 0x1#4 a b
  | .add a b => .base 0x2#4 a b
  | .sub a b => .base 0x3#4 a b
  | .mul a b => .base 0x4#4 a b
  | .div a b => .base 0x5#4 a b
  | .mod a b => .base 0x6#4 a b
  | .shl a b => .base 0x7#4 a b
  | .shr a b => .base 0x8#4 a b
  | .and a b => .base 0x9#4 a b
  | .bor a b => .base 0xA#4 a b
  | .xor a b => .base 0xB#4 a b
  | .ife a b => .base 0xC#4 a b
  | .ifn a b => .base 0xD#4 a b
  | .ifg a b => .base 0xE#4 a b
  | .ifb a b => .base 0xF#4 a b
  | .jsr b => .ext 0x01#6 b
  | .extUnimpl00 b => .ext 0x00#6 b
  | .extUnimpl02 b => .ext 0x02#6 b
  | .extUnimpl03 b => .ext 0x03#6 b
  | .extUnimpl04 b => .ext 0x04#6 b
  | .extUnimpl05 b => .ext 0x05#6 b
  | .extUnimpl06 b => .ext 0x06#6 b
  | .extUnimpl07 b => .ext 0x07#6 b
  | .extUnimpl08 b => .ext 0x08#6 b
  | .extUnimpl09 b => .ext 0x09#6 b
  | .extUnimpl0A b => .ext 0x0A#6 b
  | .extUnimpl0B b => .ext 0x0B#6 b
  | .extUnimpl0C b => .ext 0x0C#6 b
  | .extUnimpl0D b => .ext 0x0D#6 b
  | .extUnimpl0E b => .ext 0x0E#6 b
  | .extUnimpl0F b => .ext 0x0F#6 b
  | .extUnimpl10 b => .ext 0x10#6 b
  | .extUnimpl11 b => .ext 0x11#6 b
  | .extUnimpl12 b => .ext 0x12#6 b
  | .extUnimpl13 b => .ext 0x13#6 b
  | .extUnimpl14 b => .ext 0x14#6 b
  | .extUnimpl15 b => .ext 0x15#6 b
  | .extUnimpl16 b => .ext 0x16#6 b
  | .extUnimpl17 b => .ext 0x17#6 b
  | .extUnimpl18 b => .ext 0x18#6 b
  | .extUnimpl19 b => .ext 0x19#6 b
  | .extUnimpl1A b => .ext 0x1A#6 b
  | .extUnimpl1B b => .ext 0x1B#6 b
  | .extUnimpl1C b => .ext 0x1C#6 b
  | .extUnimpl1D b => .ext 0x1D#6 b
  | .extUnimpl1E b => .ext 0x1E#6 b
  | .extUnimpl1F b => .ext 0x1F#6 b
  | .extUnimpl20 b => .ext 0x20#6 b
  | .extUnimpl21 b => .ext 0x21#6 b
  | .extUnimpl22 b => .ext 0x22#6 b
  | .extUnimpl23 b => .ext 0x23#6 b
  | .extUnimpl24 b => .ext 0x24#6 b
  | .extUnimpl25 b => .ext 0x25#6 b
  | .extUnimpl26 b => .ext 0x26#6 b
  | .extUnimpl27 b => .ext 0x27#6 b
  | .extUnimpl28 b => .ext 0x28#6 b
  | .extUnimpl29 b => .ext 0x29#6 b
  | .extUnimpl2A b => .ext 0x2A#6 b
  | .extUnimpl2B b => .ext 0x2B#6 b
  | .extUnimpl2C b => .ext 0x2C#6 b
  | .extUnimpl2D b => .ext 0x2D#6 b
  | .extUnimpl2E b => .ext 0x2E#6 b
  | .extUnimpl2F b => .ext 0x2F#6 b
  | .extUnimpl30 b => .ext 0x30#6 b
  | .extUnimpl31 b => .ext 0x31#6 b
  | .extUnimpl32 b => .ext 0x32#6 b
  | .extUnimpl33 b => .ext 0x33#6 b
  | .extUnimpl34 b => .ext 0x34#6 b
  | .extUnimpl35 b => .ext 0x35#6 b
  | .extUnimpl36 b => .ext 0x36#6 b
  | .extUnimpl37 b => .ext 0x37#6 b
  | .extUnimpl38 b => .ext 0x38#6 b
  | .extUnimpl39 b => .ext 0x39#6 b
  | .extUnimpl3A b => .ext 0x3A#6 b
  | .extUnimpl3B b => .ext 0x3B#6 b
  | .extUnimpl3C b => .ext 0x3C#6 b
  | .extUnimpl3D b => .ext 0x3D#6 b
  | .extUnimpl3E b => .ext 0x3E#6 b
  | .extUnimpl3F b => .ext 0x3F#6 b

/-- The instruction word of a form. -/
def Form.word : Form → Word
  | .base op a b => encBase op a.mode b.mode
  | .ext eop b => encExt eop b.mode

/-- The next words of a form, operand A's first (R99). -/
def Form.words : Form → List Word
  | .base _ a b => a.words ++ b.words
  | .ext _ b => b.words

/-- The words of an instruction, in the order they stand in memory (R90). -/
def encode (i : Instr) : List Word := i.form.word :: i.form.words

/-! ### Assembler spelling (R105, R106)

No step of the machine reads it: it is how the spec writes an instruction down. -/

/-- Register names (R105). -/
def GpReg.spelling : GpReg → String
  | .a => "A"
  | .b => "B"
  | .c => "C"
  | .x => "X"
  | .y => "Y"
  | .z => "Z"
  | .i => "I"
  | .j => "J"

/-- One hexadecimal digit, of `n mod 16`. -/
def hexDigit (n : Nat) : String :=
  ["0", "1", "2", "3", "4", "5", "6", "7", "8", "9", "A", "B", "C", "D", "E", "F"].getD (n % 16) "0"

/-- A number, in hexadecimal (R105 allows decimal as well). -/
def hexWord (w : Word) : String :=
  "0x" ++ hexDigit (w.toNat / 4096) ++ hexDigit (w.toNat / 256) ++ hexDigit (w.toNat / 16) ++ hexDigit w.toNat

/-- The spelling column of R95. -/
def Operand.spelling : Operand → String
  | .reg r => r.spelling
  | .ind r => "[" ++ r.spelling ++ "]"
  | .idx r n => "[" ++ hexWord n ++ " + " ++ r.spelling ++ "]"
  | .pop => "POP"
  | .peek => "PEEK"
  | .push => "PUSH"
  | .sp => "SP"
  | .pc => "PC"
  | .o => "O"
  | .mem n => "[" ++ hexWord n ++ "]"
  | .lit n | .short n => hexWord n

/-- The mnemonics of R100 by opcode, and of R101: JSR, and for the others the name of their opcode-table row. -/
def Form.mnemonic : Form → String
  | .base op _ _ =>
    ["", "SET", "ADD", "SUB", "MUL", "DIV", "MOD", "SHL", "SHR", "AND", "BOR", "XOR", "IFE", "IFN", "IFG", "IFB"].getD
      op.toNat ""
  | .ext e _ => if e = 0x01#6 then "JSR" else "EXT_UNIMPL_0x" ++ hexDigit (e.toNat / 16) ++ hexDigit e.toNat

/-- `MNEMONIC a, b`, destination first, or `MNEMONIC b` (R105). -/
def Instr.spelling (i : Instr) : String :=
  match i.form with
  | .base op a b => (Form.base op a b).mnemonic ++ " " ++ a.spelling ++ ", " ++ b.spelling
  | .ext e b => (Form.ext e b).mnemonic ++ " " ++ b.spelling

/-- The operand the spec's own vectors use for a number: short form for 0 to 31, else long (R106, the spec's decision
D20). Both forms read the same; they differ in length and as destinations. -/
def literal (n : Word) : Operand := if n.toNat < 32 then .short n else .lit n

end Sys2Proof
end

