-- ==== Sys2Proof/Machine/State.lean ====
section
/-! DEFINITION. The state of the machine as plain data (10_state.md), the reasons a step can stop, and the state after
construction, which is the only reset (R270). -/

namespace Sys2Proof.Machine

/-- The eight general-purpose registers (R30). -/
structure Gp where
  a : Word
  b : Word
  c : Word
  x : Word
  y : Word
  z : Word
  i : Word
  j : Word
deriving DecidableEq, Repr

/-- The decode latch (R41). A tick writes `opword`; no rule writes the other three, because the location carried in a
resolved operand replaces the extra-word slots (R41, R125). -/
structure Latch where
  opword : Word
  step : Word
  extraA : Word
  extraB : Word
deriving DecidableEq, Repr

/-- Run control (R42). -/
inductive RunState where
  | running
  | paused
deriving DecidableEq, Repr

/-- One atomic move of an agent that can change the block (R6): the Engine's tick, or an operation of the host on the
control port (R274) or the image load port (R67). -/
inductive Move where
  | tick
  | start
  | stop
  | togglePause
  | loadImage (words : List Word) (length : Nat)
deriving DecidableEq, Repr

/-- Shared memory (R60) as the list of the words that are not 0, by rising word address. A word no entry names is 0,
its value after construction (R45). The smallest unit is the word: the core has no bytes (R64). -/
abbrev Memory := List (Nat × Word)

/-- The registers an operand can name (R46). -/
inductive RegName where
  | gp (r : GpReg)
  | sp
  | pc
  | o
deriving DecidableEq, Repr

/-- Where a write-back goes (R46, R125). -/
inductive Loc where
  | reg (r : RegName)
  | mem (addr : Word)
  | none
deriving DecidableEq, Repr

/-- A resolved operand: the value captured during resolution and the location fixed by it (R125). -/
structure Resolved where
  value : Word
  loc : Loc
deriving DecidableEq, Repr

/-- The state (R45, R46), and four fields the spec names outside the state vector or the model needs: the block's
policy parameter (R7), the status output of the latest tick (R141), the decode latch (R41), and the moves due next. -/
structure State where
  gp : Gp
  sp : Word
  pc : Word
  /-- The overflow register O (R37). -/
  o : Word
  /-- A failed condition suppresses the execution of the next instruction (R40). -/
  skip : Bool
  latch : Latch
  run : RunState
  /-- The instruction word that faulted, under the fault policy (R43). -/
  faulted : Option Word
  mem : Memory
  /-- The diagnostic output `unimpl` as the latest tick emitted it (R141). -/
  unimpl : Bool
  /-- `UNIMPL_EXT_POLICY` of this block; no step writes it (R7). -/
  policy : UnimplExtPolicy
  /-- DESIGN CHOICE (log 2): the moves due next, the first one first. The spec leaves the order of moves open (R278), so
  any list may stand here; when it is empty the Engine moves. -/
  moves : List Move
deriving DecidableEq, Repr

/-- Why the machine stops. -/
inductive Fault where
  /-- `Unimplemented(w)`, cause code 1 (R13, R240): raised by the Engine's turn once `faulted` holds `w`, for then no
  further tick is enabled (R43). The tick that executed `w` was itself a step to a next state, which holds what the
  fault records. Safe: the spec gives the Engine no later step. -/
  | unimplemented (w : Word)
deriving DecidableEq, Repr

/-- Why a step has no meaning. -/
inductive Refusal where
  /-- An instruction without a meaning yet; no arm of `exec` raises it. Safe. -/
  | notModelled (mnemonic : String)
  /-- The host's move LoadImage while the Engine is Running: the caller must prevent it (R279, 93 U2). Safe. -/
  | imageWhileRunning
  /-- LoadImage with more than 65536 words (R67, 93 U3). Safe. -/
  | imageTooLong
  /-- LoadImage whose `length` is not the number of its words: the call breaks its precondition (R67). Safe. -/
  | imageLengthMismatch
deriving DecidableEq, Repr

/-- All eight registers zero. -/
def Gp.reset : Gp := ⟨0, 0, 0, 0, 0, 0, 0, 0⟩

/-- The state after construction (R45, R270). -/
def State.reset : State where
  gp := .reset
  sp := 0
  pc := 0
  o := 0
  skip := false
  latch := ⟨0, 0, 0, 0⟩
  run := .paused
  faulted := none
  mem := []
  unimpl := false
  policy := Config.unimplExtPolicyDefault
  moves := []

end Sys2Proof.Machine
end

