-- ==== Sys2Proof/Machine/Ops.lean ====
section
/-! DEFINITION. The shared operations: memory, registers, locations, the fetch, the stack push and the one abnormal
condition. There is no trap entry and no return from a trap (60_exceptions.md R243, R244): `raiseUnimplemented` is all
there is of an exception. -/

namespace Sys2Proof.Machine

/-! ### Memory (20_memory.md) -/

/-- The word at a key of the list; 0 where no entry names it. -/
def Memory.get : Memory → Nat → Word
  | [], _ => 0#16
  | (k, w) :: m, a => if k = a then w else Memory.get m a

/-- Put a word at a key, keeping the canonical form: keys rise, and 0 is not listed. -/
def Memory.put : Memory → Nat → Word → Memory
  | [], a, v => if v = 0#16 then [] else [(a, v)]
  | (k, w) :: m, a, v =>
    if a < k then (if v = 0#16 then (k, w) :: m else (a, v) :: (k, w) :: m)
    else if a = k then (if v = 0#16 then m else (a, v) :: m)
    else (k, w) :: Memory.put m a v

/-- Canonical from key `lo` on: keys rise strictly from `lo`, lie in the address space, and no word is 0. -/
def Memory.wfFrom : Nat → Memory → Bool
  | _, [] => true
  | lo, (k, w) :: m => decide (lo ≤ k) && decide (k < Config.memWords) && decide (w ≠ 0#16) && Memory.wfFrom (k + 1) m

/-- The canonical form: equal memories are equal lists. -/
def Memory.wf (m : Memory) : Bool := Memory.wfFrom 0 m

/-- The memory that holds `words` from key `lo` on and 0 everywhere else. -/
def Memory.image : Nat → List Word → Memory
  | _, [] => []
  | lo, w :: ws => if w = 0#16 then Memory.image (lo + 1) ws else (lo, w) :: Memory.image (lo + 1) ws

/-- `MemRead(addr, 1)`: it never fails and has no side effect (R62). -/
def memRead (addr : Word) (s : State) : Word := Memory.get s.mem addr.toNat

/-! ### One update per field of the state -/

def State.setGp (s : State) (g : Gp) : State := { s with gp := g }
def State.setSp (s : State) (v : Word) : State := { s with sp := v }
def State.setPc (s : State) (v : Word) : State := { s with pc := v }
def State.setO (s : State) (v : Word) : State := { s with o := v }
def State.setSkip (s : State) (b : Bool) : State := { s with skip := b }
def State.setLatch (s : State) (l : Latch) : State := { s with latch := l }
def State.setRun (s : State) (r : RunState) : State := { s with run := r }
def State.setFaulted (s : State) (f : Option Word) : State := { s with faulted := f }
def State.setMem (s : State) (m : Memory) : State := { s with mem := m }
def State.setUnimpl (s : State) (b : Bool) : State := { s with unimpl := b }
def State.setMoves (s : State) (ms : List Move) : State := { s with moves := ms }

/-- `MemWrite(addr, 1, v)`: it never fails, and the store is its only effect (R63). -/
def memWrite (addr v : Word) (s : State) : State := s.setMem (Memory.put s.mem addr.toNat v)

/-! ### Registers and locations -/

/-- `x[i]` (R10, R31). None is hardwired (R30). -/
def Gp.get (g : Gp) : GpReg → Word
  | .a => g.a
  | .b => g.b
  | .c => g.c
  | .x => g.x
  | .y => g.y
  | .z => g.z
  | .i => g.i
  | .j => g.j

/-- `x[i] <- v` (R10). -/
def Gp.set (g : Gp) (r : GpReg) (v : Word) : Gp :=
  match r with
  | .a => { g with a := v }
  | .b => { g with b := v }
  | .c => { g with c := v }
  | .x => { g with x := v }
  | .y => { g with y := v }
  | .z => { g with z := v }
  | .i => { g with i := v }
  | .j => { g with j := v }

/-- The value a register holds. -/
def readReg (s : State) : RegName → Word
  | .gp r => s.gp.get r
  | .sp => s.sp
  | .pc => s.pc
  | .o => s.o

/-- Write a register (R10). -/
def writeReg (r : RegName) (v : Word) (s : State) : State :=
  match r with
  | .gp r => s.setGp (s.gp.set r v)
  | .sp => s.setSp v
  | .pc => s.setPc v
  | .o => s.setO v

/-- The word a location holds; a short literal has no storage (R95). -/
def readLoc (s : State) : Loc → Option Word
  | .reg r => some (readReg s r)
  | .mem addr => some (memRead addr s)
  | .none => none

/-- `Store(r, v)` (R135): a write to a short literal is discarded. -/
def store (l : Loc) (v : Word) (s : State) : State :=
  match l with
  | .reg r => writeReg r v s
  | .mem addr => memWrite addr v s
  | .none => s

/-! ### Steps of a tick that every instruction shares -/

/-- `PC <- w16(PC + 1)` (R33). -/
def advancePc (s : State) : State := s.setPc (s.pc + 1#16)

/-- Push: decrement SP, then write at SP (R36). -/
def pushWord (v : Word) (s : State) : State :=
  let t := s.setSp (s.sp - 1#16)
  memWrite t.sp v t

/-- The fetch of the instruction word `w` (R121): the latch holds it (R41), PC moves past it, and the status output is
0 unless this tick raises it (R141). -/
def fetched (w : Word) (s : State) : State :=
  advancePc ((s.setLatch { s.latch with opword := w }).setUnimpl false)

/-- The one abnormal condition (R225, R240): an executed unimplemented extended opcode pulses `unimpl`, and under the
fault policy it records its word, which ends the Engine's ticks. Nothing else is saved or changed (R243). -/
def raiseUnimplemented (w : Word) (s : State) : State :=
  match s.policy with
  | .nop => s.setUnimpl true
  | .fault => (s.setUnimpl true).setFaulted (some w)

end Sys2Proof.Machine
end

