-- ==== Sys2Proof/Machine/Operands.lean ====
section
/-! DEFINITION. The operand resolver (40_execution_cycle.md R123 to R131), every operand form. A form that consumes a
next word carries the word that fetch read at PC (Machine/Tick.lean); resolution moves PC past it. -/

namespace Sys2Proof.Machine

/-- `Resolve(m)` (R126 to R131): the resolved operand, and the state after the side effects of resolution. -/
def resolve (x : Operand) (s : State) : Resolved × State :=
  match x with
  | .reg r => (⟨s.gp.get r, .reg (.gp r)⟩, s)
  | .ind r =>
    let addr := s.gp.get r
    (⟨memRead addr s, .mem addr⟩, s)
  | .idx r n =>
    let addr := n + s.gp.get r
    (⟨memRead addr s, .mem addr⟩, advancePc s)
  | .pop => (⟨memRead s.sp s, .mem s.sp⟩, s.setSp (s.sp + 1#16))
  | .peek => (⟨memRead s.sp s, .mem s.sp⟩, s)
  | .push =>
    let addr := s.sp - 1#16
    (⟨memRead addr s, .mem addr⟩, s.setSp addr)
  | .sp => (⟨s.sp, .reg .sp⟩, s)
  | .pc => (⟨s.pc, .reg .pc⟩, s)
  | .o => (⟨s.o, .reg .o⟩, s)
  | .mem n => (⟨memRead n s, .mem n⟩, advancePc s)
  | .lit n => (⟨n, .mem n⟩, advancePc s)
  | .short v => (⟨v, .none⟩, s)

/-- The operands of a base instruction and the state after both resolutions. -/
structure Resolution where
  ra : Resolved
  rb : Resolved
  after : State
deriving DecidableEq, Repr

/-- Fetch, then resolve operand A completely, then operand B (R120, R124). -/
def resolveBase (op : BitVec 4) (a b : Operand) (s : State) : Resolution :=
  let ra := resolve a (fetched (encBase op a.mode b.mode) s)
  let rb := resolve b ra.2
  ⟨ra.1, rb.1, rb.2⟩

/-- Fetch, then resolve the lone operand B of an extended instruction (R123). -/
def resolveExt (eop : BitVec 6) (b : Operand) (s : State) : Resolved × State :=
  resolve b (fetched (encExt eop b.mode) s)

end Sys2Proof.Machine
end

