-- ==== Sys2Proof/Machine/Flags.lean ====
section
/-! DEFINITION. `ALU(op, a, b)`: the result, the overflow word and the condition of every base opcode (files 41 to 43).
Intermediates are exact natural numbers, reduced only at the end (R9, R159, R179). -/

namespace Sys2Proof.Machine

/-- The triple of R134; `none` is the spec's "undefined", meaning that the opcode does not give that part. -/
structure AluResult where
  res : Option Word
  ov : Option Word
  cond : Option Bool
deriving DecidableEq, Repr

/-- An opcode that gives a result and leaves `O` alone. -/
def AluResult.value (res : Word) : AluResult := ⟨some res, none, none⟩

/-- An opcode that gives a result and an overflow word. -/
def AluResult.withOverflow (res ov : Word) : AluResult := ⟨some res, some ov, none⟩

/-- An opcode that gives only a condition. -/
def AluResult.condition (cond : Bool) : AluResult := ⟨none, none, some cond⟩

/-- R160. -/
def aluSet (_ b : Word) : AluResult := .value b

/-- R161. -/
def aluAdd (a b : Word) : AluResult :=
  let s := a.toNat + b.toNat
  .withOverflow (w16 s) (if s ≥ 65536 then 0x0001#16 else 0x0000#16)

/-- R162; `w16(a - b) = (a - b + 65536) mod 65536` (R9). -/
def aluSub (a b : Word) : AluResult :=
  .withOverflow (w16 (a.toNat + 65536 - b.toNat)) (if a.toNat < b.toNat then 0xFFFF#16 else 0x0000#16)

/-- R163. -/
def aluMul (a b : Word) : AluResult :=
  let p := a.toNat * b.toNat
  .withOverflow (w16 p) (w16 (p / 65536))

/-- R164. -/
def aluDiv (a b : Word) : AluResult :=
  if b = 0#16 then .withOverflow 0x0000#16 0x0000#16
  else .withOverflow (w16 (a.toNat / b.toNat)) (w16 (a.toNat * 65536 / b.toNat))

/-- R165. -/
def aluMod (a b : Word) : AluResult :=
  .value (if b = 0#16 then 0x0000#16 else w16 (a.toNat % b.toNat))

/-- R180; the shift amount is the whole word (R179). -/
def aluShl (a b : Word) : AluResult :=
  let p := a.toNat * 2 ^ b.toNat
  .withOverflow (w16 p) (w16 (p / 65536))

/-- R181; a logical shift by the whole word (R179). -/
def aluShr (a b : Word) : AluResult :=
  .withOverflow (w16 (a.toNat / 2 ^ b.toNat)) (w16 (a.toNat * 65536 / 2 ^ b.toNat))

/-- R182. -/
def aluAnd (a b : Word) : AluResult := .value (a &&& b)

/-- R183. -/
def aluBor (a b : Word) : AluResult := .value (a ||| b)

/-- R184. -/
def aluXor (a b : Word) : AluResult := .value (a ^^^ b)

/-- R200. -/
def aluIfe (a b : Word) : AluResult := .condition (decide (a = b))

/-- R201. -/
def aluIfn (a b : Word) : AluResult := .condition (decide (a ≠ b))

/-- R202: unsigned. -/
def aluIfg (a b : Word) : AluResult := .condition (decide (a.toNat > b.toNat))

/-- R203. -/
def aluIfb (a b : Word) : AluResult := .condition (decide (a &&& b ≠ 0#16))

end Sys2Proof.Machine
end

