-- ==== Sys2Proof/Machine/Execute.lean ====
section
/-! DEFINITION. One tick of a decoded instruction, once for all instructions of a format (40_execution_cycle.md R120,
R132, R134): fetch, resolve, then either the skip or the execute stage. -/

namespace Sys2Proof.Machine

/-- The execute stage of a base instruction (R134): write back, then `O` (R136), then `skip` when a condition fails. -/
def commit (r : AluResult) (l : Loc) (s : State) : State :=
  let s := match r.res with
    | some v => store l v s
    | none => s
  let s := match r.ov with
    | some v => s.setO v
    | none => s
  match r.cond with
  | some false => s.setSkip true
  | some true => s
  | none => s

/-- What a tick does after resolution: a pending skip is cleared and nothing is executed (R132), else the execute stage
runs. -/
def unlessSkipped (execute : State → State) (s : State) : State :=
  if s.skip then s.setSkip false else execute s

/-- A tick of a base instruction (R120, R134). Every tick completes (R240). -/
def runBase (op : BitVec 4) (alu : Word → Word → AluResult) (a b : Operand) (s : State) :
    Host.Outcome State Fault Refusal :=
  let r := resolveBase op a b s
  .next (unlessSkipped (commit (alu r.ra.value r.rb.value) r.ra.loc) r.after)

/-- A tick of an extended instruction whose execute stage is `effect`, given operand B's value (R120, R134). -/
def runExt (eop : BitVec 6) (effect : Word → State → State) (b : Operand) (s : State) :
    Host.Outcome State Fault Refusal :=
  let r := resolveExt eop b s
  .next (unlessSkipped (effect r.1.value) r.2)

/-- A tick of an unimplemented extended opcode (R225): operand B is resolved like any operand, its value unused. -/
def runUnimplemented (eop : BitVec 6) (b : Operand) (s : State) : Host.Outcome State Fault Refusal :=
  runExt eop (fun _ => raiseUnimplemented (encExt eop b.mode)) b s

end Sys2Proof.Machine
end

