-- ==== Sys2Proof/Machine/Arith.lean ====
section
/-! DEFINITION. The meanings of SET and the arithmetic opcodes of 41_set_arith.md. -/

namespace Sys2Proof.Machine

/-- SET (o = 0x1, R160). -/
def execSet (a b : Operand) (s : State) : Host.Outcome State Fault Refusal :=
  runBase 0x1#4 aluSet a b s

/-- ADD (o = 0x2, R161). -/
def execAdd (a b : Operand) (s : State) : Host.Outcome State Fault Refusal :=
  runBase 0x2#4 aluAdd a b s

/-- SUB (o = 0x3, R162). -/
def execSub (a b : Operand) (s : State) : Host.Outcome State Fault Refusal :=
  runBase 0x3#4 aluSub a b s

/-- MUL (o = 0x4, R163). -/
def execMul (a b : Operand) (s : State) : Host.Outcome State Fault Refusal :=
  runBase 0x4#4 aluMul a b s

/-- DIV (o = 0x5, R164). -/
def execDiv (a b : Operand) (s : State) : Host.Outcome State Fault Refusal :=
  runBase 0x5#4 aluDiv a b s

/-- MOD (o = 0x6, R165). -/
def execMod (a b : Operand) (s : State) : Host.Outcome State Fault Refusal :=
  runBase 0x6#4 aluMod a b s

end Sys2Proof.Machine
end

