-- ==== Sys2Proof/Machine/Conditional.lean ====
section
/-! DEFINITION. The meanings of the conditional instructions of 43_conditional.md: they write nothing back and set `skip` when the condition fails. -/

namespace Sys2Proof.Machine

/-- IFE (o = 0xC, R200). -/
def execIfe (a b : Operand) (s : State) : Host.Outcome State Fault Refusal :=
  runBase 0xC#4 aluIfe a b s

/-- IFN (o = 0xD, R201). -/
def execIfn (a b : Operand) (s : State) : Host.Outcome State Fault Refusal :=
  runBase 0xD#4 aluIfn a b s

/-- IFG (o = 0xE, R202). -/
def execIfg (a b : Operand) (s : State) : Host.Outcome State Fault Refusal :=
  runBase 0xE#4 aluIfg a b s

/-- IFB (o = 0xF, R203). -/
def execIfb (a b : Operand) (s : State) : Host.Outcome State Fault Refusal :=
  runBase 0xF#4 aluIfb a b s

end Sys2Proof.Machine
end

