-- ==== Sys2Proof/Machine/Extended.lean ====
section
/-! DEFINITION. The extended instructions of 44_extended.md: JSR, and the 63 unimplemented extended opcodes, each of
which resolves operand B and then does what the block's policy says (R225). -/

namespace Sys2Proof.Machine

/-- JSR (R220): push the address after the whole instruction, then continue at the operand's value. -/
def execJsr (b : Operand) (s : State) : Host.Outcome State Fault Refusal :=
  runExt 0x01#6 (fun target s => (pushWord s.pc s).setPc target) b s

/-- Extended opcode 0x00, unimplemented (R225). -/
def execExtUnimpl00 (b : Operand) (s : State) : Host.Outcome State Fault Refusal :=
  runUnimplemented 0x00#6 b s

/-- Extended opcode 0x02, unimplemented (R225). -/
def execExtUnimpl02 (b : Operand) (s : State) : Host.Outcome State Fault Refusal :=
  runUnimplemented 0x02#6 b s

/-- Extended opcode 0x03, unimplemented (R225). -/
def execExtUnimpl03 (b : Operand) (s : State) : Host.Outcome State Fault Refusal :=
  runUnimplemented 0x03#6 b s

/-- Extended opcode 0x04, unimplemented (R225). -/
def execExtUnimpl04 (b : Operand) (s : State) : Host.Outcome State Fault Refusal :=
  runUnimplemented 0x04#6 b s

/-- Extended opcode 0x05, unimplemented (R225). -/
def execExtUnimpl05 (b : Operand) (s : State) : Host.Outcome State Fault Refusal :=
  runUnimplemented 0x05#6 b s

/-- Extended opcode 0x06, unimplemented (R225). -/
def execExtUnimpl06 (b : Operand) (s : State) : Host.Outcome State Fault Refusal :=
  runUnimplemented 0x06#6 b s

/-- Extended opcode 0x07, unimplemented (R225). -/
def execExtUnimpl07 (b : Operand) (s : State) : Host.Outcome State Fault Refusal :=
  runUnimplemented 0x07#6 b s

/-- Extended opcode 0x08, unimplemented (R225). -/
def execExtUnimpl08 (b : Operand) (s : State) : Host.Outcome State Fault Refusal :=
  runUnimplemented 0x08#6 b s

/-- Extended opcode 0x09, unimplemented (R225). -/
def execExtUnimpl09 (b : Operand) (s : State) : Host.Outcome State Fault Refusal :=
  runUnimplemented 0x09#6 b s

/-- Extended opcode 0x0A, unimplemented (R225). -/
def execExtUnimpl0A (b : Operand) (s : State) : Host.Outcome State Fault Refusal :=
  runUnimplemented 0x0A#6 b s

/-- Extended opcode 0x0B, unimplemented (R225). -/
def execExtUnimpl0B (b : Operand) (s : State) : Host.Outcome State Fault Refusal :=
  runUnimplemented 0x0B#6 b s

/-- Extended opcode 0x0C, unimplemented (R225). -/
def execExtUnimpl0C (b : Operand) (s : State) : Host.Outcome State Fault Refusal :=
  runUnimplemented 0x0C#6 b s

/-- Extended opcode 0x0D, unimplemented (R225). -/
def execExtUnimpl0D (b : Operand) (s : State) : Host.Outcome State Fault Refusal :=
  runUnimplemented 0x0D#6 b s

/-- Extended opcode 0x0E, unimplemented (R225). -/
def execExtUnimpl0E (b : Operand) (s : State) : Host.Outcome State Fault Refusal :=
  runUnimplemented 0x0E#6 b s

/-- Extended opcode 0x0F, unimplemented (R225). -/
def execExtUnimpl0F (b : Operand) (s : State) : Host.Outcome State Fault Refusal :=
  runUnimplemented 0x0F#6 b s

/-- Extended opcode 0x10, unimplemented (R225). -/
def execExtUnimpl10 (b : Operand) (s : State) : Host.Outcome State Fault Refusal :=
  runUnimplemented 0x10#6 b s

/-- Extended opcode 0x11, unimplemented (R225). -/
def execExtUnimpl11 (b : Operand) (s : State) : Host.Outcome State Fault Refusal :=
  runUnimplemented 0x11#6 b s

/-- Extended opcode 0x12, unimplemented (R225). -/
def execExtUnimpl12 (b : Operand) (s : State) : Host.Outcome State Fault Refusal :=
  runUnimplemented 0x12#6 b s

/-- Extended opcode 0x13, unimplemented (R225). -/
def execExtUnimpl13 (b : Operand) (s : State) : Host.Outcome State Fault Refusal :=
  runUnimplemented 0x13#6 b s

/-- Extended opcode 0x14, unimplemented (R225). -/
def execExtUnimpl14 (b : Operand) (s : State) : Host.Outcome State Fault Refusal :=
  runUnimplemented 0x14#6 b s

/-- Extended opcode 0x15, unimplemented (R225). -/
def execExtUnimpl15 (b : Operand) (s : State) : Host.Outcome State Fault Refusal :=
  runUnimplemented 0x15#6 b s

/-- Extended opcode 0x16, unimplemented (R225). -/
def execExtUnimpl16 (b : Operand) (s : State) : Host.Outcome State Fault Refusal :=
  runUnimplemented 0x16#6 b s

/-- Extended opcode 0x17, unimplemented (R225). -/
def execExtUnimpl17 (b : Operand) (s : State) : Host.Outcome State Fault Refusal :=
  runUnimplemented 0x17#6 b s

/-- Extended opcode 0x18, unimplemented (R225). -/
def execExtUnimpl18 (b : Operand) (s : State) : Host.Outcome State Fault Refusal :=
  runUnimplemented 0x18#6 b s

/-- Extended opcode 0x19, unimplemented (R225). -/
def execExtUnimpl19 (b : Operand) (s : State) : Host.Outcome State Fault Refusal :=
  runUnimplemented 0x19#6 b s

/-- Extended opcode 0x1A, unimplemented (R225). -/
def execExtUnimpl1A (b : Operand) (s : State) : Host.Outcome State Fault Refusal :=
  runUnimplemented 0x1A#6 b s

/-- Extended opcode 0x1B, unimplemented (R225). -/
def execExtUnimpl1B (b : Operand) (s : State) : Host.Outcome State Fault Refusal :=
  runUnimplemented 0x1B#6 b s

/-- Extended opcode 0x1C, unimplemented (R225). -/
def execExtUnimpl1C (b : Operand) (s : State) : Host.Outcome State Fault Refusal :=
  runUnimplemented 0x1C#6 b s

/-- Extended opcode 0x1D, unimplemented (R225). -/
def execExtUnimpl1D (b : Operand) (s : State) : Host.Outcome State Fault Refusal :=
  runUnimplemented 0x1D#6 b s

/-- Extended opcode 0x1E, unimplemented (R225). -/
def execExtUnimpl1E (b : Operand) (s : State) : Host.Outcome State Fault Refusal :=
  runUnimplemented 0x1E#6 b s

/-- Extended opcode 0x1F, unimplemented (R225). -/
def execExtUnimpl1F (b : Operand) (s : State) : Host.Outcome State Fault Refusal :=
  runUnimplemented 0x1F#6 b s

/-- Extended opcode 0x20, unimplemented (R225). -/
def execExtUnimpl20 (b : Operand) (s : State) : Host.Outcome State Fault Refusal :=
  runUnimplemented 0x20#6 b s

/-- Extended opcode 0x21, unimplemented (R225). -/
def execExtUnimpl21 (b : Operand) (s : State) : Host.Outcome State Fault Refusal :=
  runUnimplemented 0x21#6 b s

/-- Extended opcode 0x22, unimplemented (R225). -/
def execExtUnimpl22 (b : Operand) (s : State) : Host.Outcome State Fault Refusal :=
  runUnimplemented 0x22#6 b s

/-- Extended opcode 0x23, unimplemented (R225). -/
def execExtUnimpl23 (b : Operand) (s : State) : Host.Outcome State Fault Refusal :=
  runUnimplemented 0x23#6 b s

/-- Extended opcode 0x24, unimplemented (R225). -/
def execExtUnimpl24 (b : Operand) (s : State) : Host.Outcome State Fault Refusal :=
  runUnimplemented 0x24#6 b s

/-- Extended opcode 0x25, unimplemented (R225). -/
def execExtUnimpl25 (b : Operand) (s : State) : Host.Outcome State Fault Refusal :=
  runUnimplemented 0x25#6 b s

/-- Extended opcode 0x26, unimplemented (R225). -/
def execExtUnimpl26 (b : Operand) (s : State) : Host.Outcome State Fault Refusal :=
  runUnimplemented 0x26#6 b s

/-- Extended opcode 0x27, unimplemented (R225). -/
def execExtUnimpl27 (b : Operand) (s : State) : Host.Outcome State Fault Refusal :=
  runUnimplemented 0x27#6 b s

/-- Extended opcode 0x28, unimplemented (R225). -/
def execExtUnimpl28 (b : Operand) (s : State) : Host.Outcome State Fault Refusal :=
  runUnimplemented 0x28#6 b s

/-- Extended opcode 0x29, unimplemented (R225). -/
def execExtUnimpl29 (b : Operand) (s : State) : Host.Outcome State Fault Refusal :=
  runUnimplemented 0x29#6 b s

/-- Extended opcode 0x2A, unimplemented (R225). -/
def execExtUnimpl2A (b : Operand) (s : State) : Host.Outcome State Fault Refusal :=
  runUnimplemented 0x2A#6 b s

/-- Extended opcode 0x2B, unimplemented (R225). -/
def execExtUnimpl2B (b : Operand) (s : State) : Host.Outcome State Fault Refusal :=
  runUnimplemented 0x2B#6 b s

/-- Extended opcode 0x2C, unimplemented (R225). -/
def execExtUnimpl2C (b : Operand) (s : State) : Host.Outcome State Fault Refusal :=
  runUnimplemented 0x2C#6 b s

/-- Extended opcode 0x2D, unimplemented (R225). -/
def execExtUnimpl2D (b : Operand) (s : State) : Host.Outcome State Fault Refusal :=
  runUnimplemented 0x2D#6 b s

/-- Extended opcode 0x2E, unimplemented (R225). -/
def execExtUnimpl2E (b : Operand) (s : State) : Host.Outcome State Fault Refusal :=
  runUnimplemented 0x2E#6 b s

/-- Extended opcode 0x2F, unimplemented (R225). -/
def execExtUnimpl2F (b : Operand) (s : State) : Host.Outcome State Fault Refusal :=
  runUnimplemented 0x2F#6 b s

/-- Extended opcode 0x30, unimplemented (R225). -/
def execExtUnimpl30 (b : Operand) (s : State) : Host.Outcome State Fault Refusal :=
  runUnimplemented 0x30#6 b s

/-- Extended opcode 0x31, unimplemented (R225). -/
def execExtUnimpl31 (b : Operand) (s : State) : Host.Outcome State Fault Refusal :=
  runUnimplemented 0x31#6 b s

/-- Extended opcode 0x32, unimplemented (R225). -/
def execExtUnimpl32 (b : Operand) (s : State) : Host.Outcome State Fault Refusal :=
  runUnimplemented 0x32#6 b s

/-- Extended opcode 0x33, unimplemented (R225). -/
def execExtUnimpl33 (b : Operand) (s : State) : Host.Outcome State Fault Refusal :=
  runUnimplemented 0x33#6 b s

/-- Extended opcode 0x34, unimplemented (R225). -/
def execExtUnimpl34 (b : Operand) (s : State) : Host.Outcome State Fault Refusal :=
  runUnimplemented 0x34#6 b s

/-- Extended opcode 0x35, unimplemented (R225). -/
def execExtUnimpl35 (b : Operand) (s : State) : Host.Outcome State Fault Refusal :=
  runUnimplemented 0x35#6 b s

/-- Extended opcode 0x36, unimplemented (R225). -/
def execExtUnimpl36 (b : Operand) (s : State) : Host.Outcome State Fault Refusal :=
  runUnimplemented 0x36#6 b s

/-- Extended opcode 0x37, unimplemented (R225). -/
def execExtUnimpl37 (b : Operand) (s : State) : Host.Outcome State Fault Refusal :=
  runUnimplemented 0x37#6 b s

/-- Extended opcode 0x38, unimplemented (R225). -/
def execExtUnimpl38 (b : Operand) (s : State) : Host.Outcome State Fault Refusal :=
  runUnimplemented 0x38#6 b s

/-- Extended opcode 0x39, unimplemented (R225). -/
def execExtUnimpl39 (b : Operand) (s : State) : Host.Outcome State Fault Refusal :=
  runUnimplemented 0x39#6 b s

/-- Extended opcode 0x3A, unimplemented (R225). -/
def execExtUnimpl3A (b : Operand) (s : State) : Host.Outcome State Fault Refusal :=
  runUnimplemented 0x3A#6 b s

/-- Extended opcode 0x3B, unimplemented (R225). -/
def execExtUnimpl3B (b : Operand) (s : State) : Host.Outcome State Fault Refusal :=
  runUnimplemented 0x3B#6 b s

/-- Extended opcode 0x3C, unimplemented (R225). -/
def execExtUnimpl3C (b : Operand) (s : State) : Host.Outcome State Fault Refusal :=
  runUnimplemented 0x3C#6 b s

/-- Extended opcode 0x3D, unimplemented (R225). -/
def execExtUnimpl3D (b : Operand) (s : State) : Host.Outcome State Fault Refusal :=
  runUnimplemented 0x3D#6 b s

/-- Extended opcode 0x3E, unimplemented (R225). -/
def execExtUnimpl3E (b : Operand) (s : State) : Host.Outcome State Fault Refusal :=
  runUnimplemented 0x3E#6 b s

/-- Extended opcode 0x3F, unimplemented (R225). -/
def execExtUnimpl3F (b : Operand) (s : State) : Host.Outcome State Fault Refusal :=
  runUnimplemented 0x3F#6 b s

end Sys2Proof.Machine
end

