-- ==== Sys2Proof/Machine/Logic.lean ====
section
/-! DEFINITION. The meanings of the shifts and the bitwise opcodes of 42_shift_logic.md. -/

namespace Sys2Proof.Machine

/-- SHL (o = 0x7, R180). -/
def execShl (a b : Operand) (s : State) : Host.Outcome State Fault Refusal :=
  runBase 0x7#4 aluShl a b s

/-- SHR (o = 0x8, R181). -/
def execShr (a b : Operand) (s : State) : Host.Outcome State Fault Refusal :=
  runBase 0x8#4 aluShr a b s

/-- AND (o = 0x9, R182). -/
def execAnd (a b : Operand) (s : State) : Host.Outcome State Fault Refusal :=
  runBase 0x9#4 aluAnd a b s

/-- BOR (o = 0xA, R183). -/
def execBor (a b : Operand) (s : State) : Host.Outcome State Fault Refusal :=
  runBase 0xA#4 aluBor a b s

/-- XOR (o = 0xB, R184). -/
def execXor (a b : Operand) (s : State) : Host.Outcome State Fault Refusal :=
  runBase 0xB#4 aluXor a b s

end Sys2Proof.Machine
end

