-- ==== Sys2Proof/Machine/Dispatch.lean ====
section
/-! DEFINITION. One arm per constructor of Instr, each one direct call of its meaning. -/

namespace Sys2Proof.Machine

def exec (i : Instr) (s : State) : Host.Outcome State Fault Refusal :=
  match i with
  | .set a b => Sys2Proof.Machine.execSet a b s
  | .add a b => Sys2Proof.Machine.execAdd a b s
  | .sub a b => Sys2Proof.Machine.execSub a b s
  | .mul a b => Sys2Proof.Machine.execMul a b s
  | .div a b => Sys2Proof.Machine.execDiv a b s
  | .mod a b => Sys2Proof.Machine.execMod a b s
  | .shl a b => Sys2Proof.Machine.execShl a b s
  | .shr a b => Sys2Proof.Machine.execShr a b s
  | .and a b => Sys2Proof.Machine.execAnd a b s
  | .bor a b => Sys2Proof.Machine.execBor a b s
  | .xor a b => Sys2Proof.Machine.execXor a b s
  | .ife a b => Sys2Proof.Machine.execIfe a b s
  | .ifn a b => Sys2Proof.Machine.execIfn a b s
  | .ifg a b => Sys2Proof.Machine.execIfg a b s
  | .ifb a b => Sys2Proof.Machine.execIfb a b s
  | .jsr b => Sys2Proof.Machine.execJsr b s
  | .extUnimpl00 b => Sys2Proof.Machine.execExtUnimpl00 b s
  | .extUnimpl02 b => Sys2Proof.Machine.execExtUnimpl02 b s
  | .extUnimpl03 b => Sys2Proof.Machine.execExtUnimpl03 b s
  | .extUnimpl04 b => Sys2Proof.Machine.execExtUnimpl04 b s
  | .extUnimpl05 b => Sys2Proof.Machine.execExtUnimpl05 b s
  | .extUnimpl06 b => Sys2Proof.Machine.execExtUnimpl06 b s
  | .extUnimpl07 b => Sys2Proof.Machine.execExtUnimpl07 b s
  | .extUnimpl08 b => Sys2Proof.Machine.execExtUnimpl08 b s
  | .extUnimpl09 b => Sys2Proof.Machine.execExtUnimpl09 b s
  | .extUnimpl0A b => Sys2Proof.Machine.execExtUnimpl0A b s
  | .extUnimpl0B b => Sys2Proof.Machine.execExtUnimpl0B b s
  | .extUnimpl0C b => Sys2Proof.Machine.execExtUnimpl0C b s
  | .extUnimpl0D b => Sys2Proof.Machine.execExtUnimpl0D b s
  | .extUnimpl0E b => Sys2Proof.Machine.execExtUnimpl0E b s
  | .extUnimpl0F b => Sys2Proof.Machine.execExtUnimpl0F b s
  | .extUnimpl10 b => Sys2Proof.Machine.execExtUnimpl10 b s
  | .extUnimpl11 b => Sys2Proof.Machine.execExtUnimpl11 b s
  | .extUnimpl12 b => Sys2Proof.Machine.execExtUnimpl12 b s
  | .extUnimpl13 b => Sys2Proof.Machine.execExtUnimpl13 b s
  | .extUnimpl14 b => Sys2Proof.Machine.execExtUnimpl14 b s
  | .extUnimpl15 b => Sys2Proof.Machine.execExtUnimpl15 b s
  | .extUnimpl16 b => Sys2Proof.Machine.execExtUnimpl16 b s
  | .extUnimpl17 b => Sys2Proof.Machine.execExtUnimpl17 b s
  | .extUnimpl18 b => Sys2Proof.Machine.execExtUnimpl18 b s
  | .extUnimpl19 b => Sys2Proof.Machine.execExtUnimpl19 b s
  | .extUnimpl1A b => Sys2Proof.Machine.execExtUnimpl1A b s
  | .extUnimpl1B b => Sys2Proof.Machine.execExtUnimpl1B b s
  | .extUnimpl1C b => Sys2Proof.Machine.execExtUnimpl1C b s
  | .extUnimpl1D b => Sys2Proof.Machine.execExtUnimpl1D b s
  | .extUnimpl1E b => Sys2Proof.Machine.execExtUnimpl1E b s
  | .extUnimpl1F b => Sys2Proof.Machine.execExtUnimpl1F b s
  | .extUnimpl20 b => Sys2Proof.Machine.execExtUnimpl20 b s
  | .extUnimpl21 b => Sys2Proof.Machine.execExtUnimpl21 b s
  | .extUnimpl22 b => Sys2Proof.Machine.execExtUnimpl22 b s
  | .extUnimpl23 b => Sys2Proof.Machine.execExtUnimpl23 b s
  | .extUnimpl24 b => Sys2Proof.Machine.execExtUnimpl24 b s
  | .extUnimpl25 b => Sys2Proof.Machine.execExtUnimpl25 b s
  | .extUnimpl26 b => Sys2Proof.Machine.execExtUnimpl26 b s
  | .extUnimpl27 b => Sys2Proof.Machine.execExtUnimpl27 b s
  | .extUnimpl28 b => Sys2Proof.Machine.execExtUnimpl28 b s
  | .extUnimpl29 b => Sys2Proof.Machine.execExtUnimpl29 b s
  | .extUnimpl2A b => Sys2Proof.Machine.execExtUnimpl2A b s
  | .extUnimpl2B b => Sys2Proof.Machine.execExtUnimpl2B b s
  | .extUnimpl2C b => Sys2Proof.Machine.execExtUnimpl2C b s
  | .extUnimpl2D b => Sys2Proof.Machine.execExtUnimpl2D b s
  | .extUnimpl2E b => Sys2Proof.Machine.execExtUnimpl2E b s
  | .extUnimpl2F b => Sys2Proof.Machine.execExtUnimpl2F b s
  | .extUnimpl30 b => Sys2Proof.Machine.execExtUnimpl30 b s
  | .extUnimpl31 b => Sys2Proof.Machine.execExtUnimpl31 b s
  | .extUnimpl32 b => Sys2Proof.Machine.execExtUnimpl32 b s
  | .extUnimpl33 b => Sys2Proof.Machine.execExtUnimpl33 b s
  | .extUnimpl34 b => Sys2Proof.Machine.execExtUnimpl34 b s
  | .extUnimpl35 b => Sys2Proof.Machine.execExtUnimpl35 b s
  | .extUnimpl36 b => Sys2Proof.Machine.execExtUnimpl36 b s
  | .extUnimpl37 b => Sys2Proof.Machine.execExtUnimpl37 b s
  | .extUnimpl38 b => Sys2Proof.Machine.execExtUnimpl38 b s
  | .extUnimpl39 b => Sys2Proof.Machine.execExtUnimpl39 b s
  | .extUnimpl3A b => Sys2Proof.Machine.execExtUnimpl3A b s
  | .extUnimpl3B b => Sys2Proof.Machine.execExtUnimpl3B b s
  | .extUnimpl3C b => Sys2Proof.Machine.execExtUnimpl3C b s
  | .extUnimpl3D b => Sys2Proof.Machine.execExtUnimpl3D b s
  | .extUnimpl3E b => Sys2Proof.Machine.execExtUnimpl3E b s
  | .extUnimpl3F b => Sys2Proof.Machine.execExtUnimpl3F b s

end Sys2Proof.Machine
end

