-- ==== Sys2Proof/Machine/Tick.lean ====
section
/-! DEFINITION. The Engine's turn: fetch and decode from shared memory at PC, and the enabling of a tick
(40_execution_cycle.md R120 to R122, 70_reset_and_hazards.md R278). -/

namespace Sys2Proof.Machine

/-- The instruction at PC. Its next words are the words after it, addresses wrapping (R33, R65, R99). Resolution writes
no memory (R74), so the words read here are the ones resolution reads at PC; a read has no side effect (R62). -/
def fetchInstr (s : State) : Instr :=
  decodeAt (memRead s.pc s) (memRead (s.pc + 1#16) s) (memRead (s.pc + 2#16) s)

/-- The Engine's turn. A tick is enabled exactly when the Engine is Running and not faulted (R278); while Paused the
turn passes and everything is kept (R252, log 3); once faulted the Engine takes no further tick (R43, log 4). -/
def engineTurn (s : State) : Host.Outcome State Fault Refusal :=
  match s.faulted, s.run with
  | some w, _ => .fault (.unimplemented w)
  | none, .paused => .next s
  | none, .running => exec (fetchInstr s) s

end Sys2Proof.Machine
end

