-- ==== Sys2Proof/Machine/Control.lean ====
section
/-! DEFINITION. The host's operations: run control (70_reset_and_hazards.md R274 to R277), the image load and the
packing of an image file (20_memory.md R67, R68), and one move of whichever agent is due. -/

namespace Sys2Proof.Machine

/-- `Start()` (R275): idempotent; it does not clear `faulted`. -/
def hostStart (s : State) : State := s.setRun .running

/-- `Stop()` (R276): idempotent. -/
def hostStop (s : State) : State := s.setRun .paused

/-- `TogglePause()` (R277). -/
def hostTogglePause (s : State) : State :=
  match s.run with
  | .running => s.setRun .paused
  | .paused => s.setRun .running

/-- `LoadImage(words, length)` (R67): the whole memory is replaced, the words past the image are 0, and no register
changes (R271). A call that breaks the precondition has no meaning. -/
def hostLoadImage (words : List Word) (length : Nat) (s : State) : Host.Outcome State Fault Refusal :=
  if s.run = .running then .refused .imageWhileRunning
  else if length > Config.memWords then .refused .imageTooLong
  else if length ≠ words.length then .refused .imageLengthMismatch
  else .next (s.setMem (Memory.image 0 words))

/-- The words of a program image file (R68): big-endian, and the low byte of an odd file's last word is 0. -/
def packImage : List Byte → List Word
  | [] => []
  | [hi] => [hi ++ 0#8]
  | hi :: lo :: bytes => (hi ++ lo) :: packImage bytes

/-- One atomic move (R6, R140): a host operation takes effect between ticks. -/
def takeMove (m : Move) (s : State) : Host.Outcome State Fault Refusal :=
  match m with
  | .tick => engineTurn s
  | .start => .next (hostStart s)
  | .stop => .next (hostStop s)
  | .togglePause => .next (hostTogglePause s)
  | .loadImage words length => hostLoadImage words length s

end Sys2Proof.Machine
end

