-- ==== Sys2Proof/Machine/Step.lean ====
section
/-! DEFINITION. One step of the machine: the move that is due, or a turn of the Engine when none is. -/

namespace Sys2Proof.Machine

/-- One atomic step of one agent (R5, R6). The order of moves is data in the state and left open (R278, log 2). -/
def step (s : State) : Host.Outcome State Fault Refusal :=
  match s.moves with
  | [] => engineTurn s
  | m :: ms => takeMove m (s.setMoves ms)

/-- `s` with the instruction whose bits are `w` at PC (two words of zeros after it where `nbits` is 16), the Engine
Running and not faulted, no skip pending and no other move due, so that the next step runs that instruction (log 5). -/
def State.withFetchWord (s : State) (nbits w : Nat) : State :=
  let v := w % 2 ^ nbits
  let placed := memWrite (s.pc + 2#16) (tableWord v 2) (memWrite (s.pc + 1#16) (tableWord v 1) (memWrite s.pc (tableWord v 0) s))
  (((placed.setRun .running).setFaulted none).setSkip false).setMoves []

end Sys2Proof.Machine
end

