-- ==== Sys2Proof/Machine/Screen.lean ====
section
/-! DEFINITION. The screen port (20_memory.md R66, R67, R73). Display readers hold no state and write nothing, so a call of
`ReadScreen` is described by what it may return, given the states the block passes through while the call lasts. -/

namespace Sys2Proof.Machine

/-- Word `k` of the screen window, `mem[0xE000 + k]` (R66). -/
def screenWord (k : Nat) (s : State) : Word := Memory.get s.mem (Config.screenBase + k)

/-- `ReadScreen()` when nothing else moves during the call (R66). -/
def readScreen (s : State) : List Word := (List.range Config.screenWords).map fun k => screenWord k s

/-- The move due is an image load. -/
def State.imageLoadDue (s : State) : Prop := ∃ words length ms, s.moves = .loadImage words length :: ms

/-- The states are those of a run, each the next of the one before. -/
def IsRun (states : List State) : Prop := states.IsChain fun s t => step s = .next t

/-- No image load happens from the first of the states to the last. -/
def NoImageLoadWithin (states : List State) : Prop := states.IsChain fun s _ => ¬ s.imageLoadDue

/-- What `ReadScreen()` may return when the block runs through the states `during` from the call's start to its end. Each
word is the one its address held in some of those states, word by word and in any order (R73). An image load is atomic with
respect to the call and serialised against it (R67, R76), so all words come from one stretch `reads` of the run with no
image load within it: none mixes with the words of another image. -/
def FrameAdmitted (during : List State) (frame : List Word) : Prop :=
  IsRun during ∧ frame.length = Config.screenWords ∧
    ∃ before reads after, during = before ++ reads ++ after ∧ NoImageLoadWithin reads ∧
      ∀ k < Config.screenWords, ∃ s ∈ reads, frame[k]? = some (screenWord k s)

/-- The frame's word for the display cell at (column, row), by the block's OPEN `SCREEN_LAYOUT` (R249). -/
def cellWord (frame : List Word) (column row : Nat) : Option Word := frame[Config.screenLayout column row]?

end Sys2Proof.Machine
end

