-- ==== Sys2Proof/Safety.lean ====
section
/-! DEFINITION. The terms claims are stated in: when a tick is enabled, which opcodes write what, the invariant of the
machine, and a run that does not stop. -/

namespace Sys2Proof.Machine

/-- A tick is enabled exactly when the Engine is Running and not faulted (R278). -/
def State.tickEnabled (s : State) : Prop := s.run = .running ∧ s.faulted = none

/-- The Engine moves next: no other move is due, or a tick is. -/
def State.engineDue (s : State) : Prop := s.moves = [] ∨ ∃ ms, s.moves = .tick :: ms

/-- The opcodes that define `res`: SET to XOR (R134). -/
def writesResult (op : BitVec 4) : Bool := decide (0x1#4 ≤ op) && decide (op ≤ 0xB#4)

/-- The opcodes that define `ov`: ADD, SUB, MUL, DIV, SHL, SHR (R37, R134). -/
def writesOverflow (op : BitVec 4) : Bool :=
  decide (op = 0x2#4) || decide (op = 0x3#4) || decide (op = 0x4#4) || decide (op = 0x5#4) || decide (op = 0x7#4) ||
    decide (op = 0x8#4)

/-- The opcodes that define `cond`: IFE to IFB (R134). -/
def isConditional (op : BitVec 4) : Bool := decide (0xC#4 ≤ op)

/-- The condition of R200 to R203 fails for the operand values `a` and `b`. -/
def conditionFails (op : BitVec 4) (a b : Word) : Prop :=
  op = 0xC#4 ∧ a ≠ b ∨ op = 0xD#4 ∧ a = b ∨ op = 0xE#4 ∧ a ≤ b ∨ op = 0xF#4 ∧ a &&& b = 0#16

/-- How far resolving an operand moves SP: up for POP, down for PUSH, else not at all (R36, R123). -/
def stackShift : Operand → Word
  | .pop => 1#16
  | .push => 0xFFFF#16
  | .reg _ | .ind _ | .idx _ _ | .peek | .sp | .pc | .o | .mem _ | .lit _ | .short _ => 0#16

/-- How far resolving all operands of an instruction moves SP. -/
def formStackShift : Form → Word
  | .base _ a b => stackShift a + stackShift b
  | .ext _ b => stackShift b

/-- The number of words of an instruction (R90, R98). -/
def instrLength (i : Instr) : Word := BitVec.ofNat 16 (encode i).length

/-- The instruction writes PC other than by its increments (R34): a result stored through mode 0x1C, or JSR. -/
def formWritesPc : Form → Bool
  | .base op a _ => writesResult op && decide (a = .pc)
  | .ext e _ => decide (e = 0x01#6)

/-- Fields of the state that no instruction's own effect touches: run control, the policy, the moves due, and the three
unwritten words of the latch. -/
def SameSurroundings (s t : State) : Prop :=
  t.run = s.run ∧ t.policy = s.policy ∧ t.moves = s.moves ∧ t.latch.step = s.latch.step ∧
    t.latch.extraA = s.latch.extraA ∧ t.latch.extraB = s.latch.extraB

/-- The invariant every step keeps. -/
structure State.Inv (s : State) : Prop where
  /-- Memory keeps its one canonical form. -/
  mem_canonical : s.mem.wf = true
  /-- The step counter stays 0 (R41), and so do the two slots that no rule writes. -/
  latch_unused : s.latch.step = 0#16 ∧ s.latch.extraA = 0#16 ∧ s.latch.extraB = 0#16
  /-- Under the nop policy `faulted` stays none forever (R43). -/
  nop_never_faults : s.policy = .nop → s.faulted = none
  /-- What `faulted` records is the word of an unimplemented extended opcode (R240). -/
  faulted_word : ∀ w, s.faulted = some w → bits w 0 4 = 0#4 ∧ bits w 4 6 ≠ 0x01#6
  /-- The tick that faulted pulsed the status output and was the last tick (R43, R225). -/
  faulted_pulsed : s.faulted ≠ none → s.unimpl = true

/-- `n` steps from `s` end in a state: no fault and no refusal on the way. -/
def RunsOn (n : Nat) (s : State) : Prop := ∃ t, Sys2Proof.core.run n s = .next t

end Sys2Proof.Machine
end

