-- ==== Sys2Proof/Certificates/Slice0/Obligations.lean ====
section
/-! DEFINITION. The statements about the machine, for the provers. Where a statement rests on one of the spec's own
decisions (92_eei_decisions.md D<n>) or on a choice of this model (log <n>), its docstring says so. -/

open Sys2Proof Sys2Proof.Machine

/-! ### Encoding (30_encoding.md) -/

/-- Decoding the words of a well-formed instruction gives it back, with the words after it (all 79 constructors). -/
def Obligations.DecodeOfEncodeIsTheInstruction : Prop :=
  ∀ (i : Instr) (rest : List Word), i.wf = true → decode (encode i ++ rest) = .ok (i, rest)

/-- The other direction: the instruction decoded from any word is well-formed, and its words are the words it was decoded
from. So no two words mean the same instruction and no bit is lost. -/
def Obligations.EncodeOfDecodeIsTheWords : Prop :=
  ∀ w n1 n2 : Word,
    (decodeAt w n1 n2).wf = true ∧ encode (decodeAt w n1 n2) = [w, n1, n2].take (lengthOf w)

/-- R93: the fields of every word, as numbers, and no word fails to decode. -/
def Obligations.EveryWordDecodesByItsFields : Prop :=
  (∀ w : Word,
    (w.toNat % 16 ≠ 0 → ∃ (op : BitVec 4) (ma mb : BitVec 6), decodeFields w = .base op ma mb ∧
      op.toNat = w.toNat % 16 ∧ ma.toNat = w.toNat / 16 % 64 ∧ mb.toNat = w.toNat / 1024) ∧
    (w.toNat % 16 = 0 → ∃ eop mb : BitVec 6, decodeFields w = .ext eop mb ∧
      eop.toNat = w.toNat / 16 % 64 ∧ mb.toNat = w.toNat / 1024)) ∧
  ∀ (w n1 n2 : Word) (rest : List Word), ∃ i more, decode (w :: n1 :: n2 :: rest) = .ok (i, more)

/-- The opcode map of R100 and R101: each base opcode by `w & 0x000F`, JSR and the unimplemented values by `w & 0x03FF`.
The operands are those of bits 9:4 and 15:10 (R91, R92, R99). -/
def Obligations.OpcodeMapByMatchAndMask : Prop :=
  (∀ (k : Nat) (c : Operand → Operand → Instr),
    [Instr.set, .add, .sub, .mul, .div, .mod, .shl, .shr, .and, .bor, .xor, .ife, .ifn, .ifg, .ifb][k]? = some c →
    ∀ w n1 n2 : Word, w &&& 0x000F#16 = BitVec.ofNat 16 (k + 1) →
      decodeAt w n1 n2 = c (operandOf (bits w 4 6) n1)
        (operandOf (bits w 10 6) (if needsWord (bits w 4 6) then n2 else n1))) ∧
  (∀ w n1 n2 : Word, w &&& 0x03FF#16 = 0x0010#16 → decodeAt w n1 n2 = .jsr (operandOf (bits w 10 6) n1)) ∧
  (∀ w n1 n2 : Word, w &&& 0x000F#16 = 0#16 → w &&& 0x03FF#16 ≠ 0x0010#16 →
    bits w 4 6 ≠ 0x01#6 ∧ (decodeAt w n1 n2).form = .ext (bits w 4 6) (operandOf (bits w 10 6) n1))

/-- Words written out from the spec's encodings (95_test_vectors.md 2.1) mean what the table says. -/
def Obligations.SampleWordsDecode : Prop :=
  decodeAt 0x7C01 0x0030 0 = .set (.reg .a) (.lit 0x0030) ∧
  decodeAt 0x7DE1 0x1000 0x0020 = .set (.mem 0x1000) (.lit 0x0020) ∧
  decodeAt 0x8432 0 0 = .add (.reg .x) (.short 1) ∧
  decodeAt 0x85C3 0 0 = .sub .pc (.short 1) ∧
  decodeAt 0x9D21 0x0010 0 = .set (.idx .c 0x0010) (.short 7) ∧
  decodeAt 0x8807 0 0 = .shl (.reg .a) (.short 2) ∧
  decodeAt 0x7C0B 0x00FF 0 = .xor (.reg .a) (.lit 0x00FF) ∧
  decodeAt 0xFFFF 0 0 = .ifb (.short 31) (.short 31) ∧
  decodeAt 0x6181 0 0 = .set .pop .pop ∧
  decodeAt 0x7C10 0x0100 0 = .jsr (.lit 0x0100) ∧
  decodeAt 0x0000 0 0 = .extUnimpl00 (.reg .a) ∧
  decodeAt 0x41F0 0x1234 0 = .extUnimpl1F (.idx .a 0x1234)

/-! ### Fetch and step -/

/-- A step runs the decoded instruction: when the Engine is due and enabled and the words at PC decode to `i`, the step is
`exec i`, and nothing is added around it. -/
def Obligations.StepRunsTheDecodedInstruction : Prop :=
  ∀ (s : State) (i : Instr) (more : List Word), s.tickEnabled →
    decode [memRead s.pc s, memRead (s.pc + 1#16) s, memRead (s.pc + 2#16) s] = .ok (i, more) →
    (s.moves = [] → step s = exec i s) ∧
    (∀ ms, s.moves = .tick :: ms → step s = exec i (s.setMoves ms))

/-- The words of the instruction an enabled tick runs are the words of memory from PC on, addresses wrapping, and the
latch holds the first of them. -/
def Obligations.InstructionWordsAreTheWordsAtPc : Prop :=
  ∀ s : State,
    encode (fetchInstr s) =
      (List.range (encode (fetchInstr s)).length).map (fun k => memRead (s.pc + BitVec.ofNat 16 k) s) ∧
    ∀ t, s.tickEnabled → s.engineDue → step s = .next t → t.latch.opword = memRead s.pc s

/-! ### The operand resolver (40_execution_cycle.md) -/

/-- Modes 0x00 to 0x17 (R126, R127), for each register by its index. Which register an index names is R31, the spec's own
derivation from a listing order (log 20). An indexed mode's next word is the one at PC, and its sum wraps. -/
def Obligations.RegisterIndirectAndIndexedModes : Prop :=
  ∀ (k : Nat) (r : GpReg) (n : Word) (s : State), [GpReg.a, .b, .c, .x, .y, .z, .i, .j][k]? = some r →
    resolve (operandOf (BitVec.ofNat 6 k) n) s = (⟨s.gp.get r, .reg (.gp r)⟩, s) ∧
    resolve (operandOf (BitVec.ofNat 6 (0x08 + k)) n) s = (⟨memRead (s.gp.get r) s, .mem (s.gp.get r)⟩, s) ∧
    (n = memRead s.pc s →
      let addr := w16 (n.toNat + (s.gp.get r).toNat)
      resolve (operandOf (BitVec.ofNat 6 (0x10 + k)) n) s = (⟨memRead addr s, .mem addr⟩, s.setPc (s.pc + 1#16)))

/-- R128 and R129: modes 0x1E and 0x1F, the next word read at PC. A write through mode 0x1F goes to memory at the next
word's value and leaves every other word, the program's own next word among them, alone. -/
def Obligations.NextWordModes : Prop :=
  (∀ s : State,
    let n := memRead s.pc s
    resolve (operandOf 0x1E#6 n) s = (⟨memRead n s, .mem n⟩, s.setPc (s.pc + 1#16)) ∧
    resolve (operandOf 0x1F#6 n) s = (⟨n, .mem n⟩, s.setPc (s.pc + 1#16))) ∧
  ∀ (n : Word) (b : Operand) (s t : State), s.mem.wf = true → s.skip = false → exec (.set (.lit n) b) s = .next t →
    memRead n t = (resolveBase 0x1#4 (.lit n) b s).rb.value ∧ ∀ x, x ≠ n → memRead x t = memRead x s

/-- R130: POP, PEEK and PUSH. -/
def Obligations.StackModes : Prop :=
  ∀ (n : Word) (s : State),
    resolve (operandOf 0x18#6 n) s = (⟨memRead s.sp s, .mem s.sp⟩, s.setSp (s.sp + 1#16)) ∧
    resolve (operandOf 0x19#6 n) s = (⟨memRead s.sp s, .mem s.sp⟩, s) ∧
    resolve (operandOf 0x1A#6 n) s =
      (⟨memRead (s.sp - 1#16) s, .mem (s.sp - 1#16)⟩, s.setSp (s.sp - 1#16))

/-- R131: SP, PC, O and the short literals 0 to 31. -/
def Obligations.SpecialRegisterAndShortLiteralModes : Prop :=
  ∀ (n : Word) (s : State),
    resolve (operandOf 0x1B#6 n) s = (⟨s.sp, .reg .sp⟩, s) ∧
    resolve (operandOf 0x1C#6 n) s = (⟨s.pc, .reg .pc⟩, s) ∧
    resolve (operandOf 0x1D#6 n) s = (⟨s.o, .reg .o⟩, s) ∧
    ∀ k : Nat, k < 32 → resolve (operandOf (BitVec.ofNat 6 (0x20 + k)) n) s = (⟨BitVec.ofNat 16 k, .none⟩, s)

/-- Fetch, then operand A, then operand B, for every opcode and every pair of operands: the state in which A is resolved
is the one after the fetch, B is resolved in the state A leaves, and both captured values and locations are those of
`resolve`. The lone operand of an extended instruction is resolved right after the fetch (R120 to R125). Then, through
`exec`, the forms where the order, the captured value or the fixed location shows (R35, R124, R137, R138), and the lone
operand of JSR. That A comes before B, with its value captured and its location fixed, is the spec's own decisions D2 and
D3 (log 10); that the fetch writes the latch is DEDUCED (log 8) and that it clears the status output is log 7. -/
def Obligations.OperandAResolvedBeforeOperandB : Prop :=
  (∀ (op : BitVec 4) (a b : Operand) (s : State),
    let f := ((s.setLatch { s.latch with opword := encBase op a.mode b.mode }).setUnimpl false).setPc (s.pc + 1#16)
    (resolveBase op a b s).ra = (resolve a f).1 ∧
    (resolveBase op a b s).rb = (resolve b (resolve a f).2).1 ∧
    (resolveBase op a b s).after = (resolve b (resolve a f).2).2) ∧
  (∀ (e : BitVec 6) (b : Operand) (s : State),
    let f := ((s.setLatch { s.latch with opword := encExt e b.mode }).setUnimpl false).setPc (s.pc + 1#16)
    resolveExt e b s = resolve b f) ∧
  ∀ s t : State, s.mem.wf = true → s.skip = false →
    (exec (.set .push .sp) s = .next t → t.sp = s.sp - 1#16 ∧ memRead (s.sp - 1#16) t = s.sp - 1#16) ∧
    (exec (.set .pop .pop) s = .next t → t.sp = s.sp + 2#16 ∧ memRead s.sp t = memRead (s.sp + 1#16) s) ∧
    (exec (.set .peek .pop) s = .next t → t.sp = s.sp + 1#16 ∧ ∀ x, memRead x t = memRead x s) ∧
    (exec (.set .sp .pop) s = .next t → t.sp = memRead s.sp s) ∧
    (exec (.add .sp .pop) s = .next t → t.sp = s.sp + memRead s.sp s) ∧
    (∀ n, exec (.add .pc (.lit n)) s = .next t → t.pc = s.pc + 1#16 + n) ∧
    (∀ n, exec (.set (.mem n) .pc) s = .next t → memRead n t = s.pc + 2#16) ∧
    (∀ q p, exec (.add (.reg q) (.reg p)) s = .next t → t.gp.get q = s.gp.get q + s.gp.get p) ∧
    (∀ n, exec (.jsr (.lit n)) s = .next t → t.pc = n) ∧
    (exec (.jsr .pop) s = .next t → t.pc = memRead s.sp s) ∧
    ∀ q, exec (.jsr (.reg q)) s = .next t → t.pc = s.gp.get q

/-! ### What each instruction does, and that it completes

In each, `r` is the fetch and the resolution of both operands. That A comes before B, and `O` after the write-back, are
the spec's own decisions D2 and D5 (log 10, log 12). -/

/-- R161. -/
def Obligations.AddResultAndCarry : Prop :=
  ∀ (a b : Operand) (s : State), s.skip = false →
    let r := resolveBase 0x2#4 a b s
    exec (.add a b) s = .next ((store r.ra.loc (r.ra.value + r.rb.value) r.after).setO
      (if r.ra.value.toNat + r.rb.value.toNat ≥ 65536 then 0x0001#16 else 0x0000#16))

/-- R162. -/
def Obligations.SubResultAndBorrow : Prop :=
  ∀ (a b : Operand) (s : State), s.skip = false →
    let r := resolveBase 0x3#4 a b s
    exec (.sub a b) s = .next ((store r.ra.loc (r.ra.value - r.rb.value) r.after).setO
      (if r.ra.value < r.rb.value then 0xFFFF#16 else 0x0000#16))

/-- R163. -/
def Obligations.MulResultAndHighWord : Prop :=
  ∀ (a b : Operand) (s : State), s.skip = false →
    let r := resolveBase 0x4#4 a b s
    exec (.mul a b) s = .next ((store r.ra.loc (r.ra.value * r.rb.value) r.after).setO
      (w16 ((r.ra.value.toNat * r.rb.value.toNat) >>> 16)))

/-- R164: the quotient and its 16 fractional bits; both 0 for a zero divisor. -/
def Obligations.DivResultAndFraction : Prop :=
  ∀ (a b : Operand) (s : State), s.skip = false →
    let r := resolveBase 0x5#4 a b s
    (r.rb.value = 0#16 → exec (.div a b) s = .next ((store r.ra.loc 0#16 r.after).setO 0#16)) ∧
    (r.rb.value ≠ 0#16 →
      exec (.div a b) s = .next ((store r.ra.loc (r.ra.value / r.rb.value) r.after).setO
        (w16 ((r.ra.value.toNat <<< 16) / r.rb.value.toNat))))

/-- R165: `O` is unchanged unless it is the destination. -/
def Obligations.ModResult : Prop :=
  ∀ (a b : Operand) (s : State), s.skip = false →
    let r := resolveBase 0x6#4 a b s
    (r.rb.value = 0#16 → exec (.mod a b) s = .next (store r.ra.loc 0#16 r.after)) ∧
    (r.rb.value ≠ 0#16 → exec (.mod a b) s = .next (store r.ra.loc (r.ra.value % r.rb.value) r.after))

/-- R180. For amounts of 32 and more the exact reading is the spec's own decision D8 (log 14). -/
def Obligations.ShlResultAndOverflow : Prop :=
  ∀ (a b : Operand) (s : State), s.skip = false →
    let r := resolveBase 0x7#4 a b s
    exec (.shl a b) s = .next ((store r.ra.loc (r.ra.value <<< r.rb.value.toNat) r.after).setO
      (w16 ((r.ra.value.toNat <<< r.rb.value.toNat) >>> 16)))

/-- R181. For amounts of 32 and more, and for `a ≥ 0x8000`, the exact reading is the spec's own decision D8 (log 14). -/
def Obligations.ShrResultAndOverflow : Prop :=
  ∀ (a b : Operand) (s : State), s.skip = false →
    let r := resolveBase 0x8#4 a b s
    exec (.shr a b) s = .next ((store r.ra.loc (r.ra.value >>> r.rb.value.toNat) r.after).setO
      (w16 ((r.ra.value.toNat <<< 16) >>> r.rb.value.toNat)))

/-- R160, R182, R183, R184: SET, AND, BOR and XOR; `O` is unchanged unless it is the destination. -/
def Obligations.SetAndBitwiseResults : Prop :=
  ∀ (a b : Operand) (s : State), s.skip = false →
    (let r := resolveBase 0x1#4 a b s
     exec (.set a b) s = .next (store r.ra.loc r.rb.value r.after)) ∧
    (let r := resolveBase 0x9#4 a b s
     exec (.and a b) s = .next (store r.ra.loc (r.ra.value &&& r.rb.value) r.after)) ∧
    (let r := resolveBase 0xA#4 a b s
     exec (.bor a b) s = .next (store r.ra.loc (r.ra.value ||| r.rb.value) r.after)) ∧
    (let r := resolveBase 0xB#4 a b s
     exec (.xor a b) s = .next (store r.ra.loc (r.ra.value ^^^ r.rb.value) r.after))

/-- R200 to R203: IFE, IFN, IFG and IFB write nothing back, leave `O`, and set `skip` when the condition fails. One that
is itself skipped is not evaluated and sets nothing; that its operands are resolved all the same, SP changes included, is
R123 and R133, on the spec's own decision D4 (log 11). -/
def Obligations.ConditionalsSetSkipOnFailure : Prop :=
  (∀ (i : Instr) (op : BitVec 4) (a b : Operand) (s : State), i.form = .base op a b → isConditional op = true →
    s.skip = true → exec i s = .next ((resolveBase op a b s).after.setSkip false)) ∧
  ∀ (a b : Operand) (s : State), s.skip = false →
    (let r := resolveBase 0xC#4 a b s
     exec (.ife a b) s = .next (if r.ra.value = r.rb.value then r.after else r.after.setSkip true)) ∧
    (let r := resolveBase 0xD#4 a b s
     exec (.ifn a b) s = .next (if r.ra.value ≠ r.rb.value then r.after else r.after.setSkip true)) ∧
    (let r := resolveBase 0xE#4 a b s
     exec (.ifg a b) s = .next (if r.ra.value > r.rb.value then r.after else r.after.setSkip true)) ∧
    (let r := resolveBase 0xF#4 a b s
     exec (.ifb a b) s = .next (if r.ra.value &&& r.rb.value ≠ 0#16 then r.after else r.after.setSkip true))

/-- R220: JSR pushes the address after the whole instruction and continues at the operand's value. A skipped JSR pushes
nothing and does not jump; that its operand's SP change happens all the same is the spec's own decision D4 (log 11). -/
def Obligations.JsrPushesReturnAddressAndJumps : Prop :=
  ∀ (b : Operand) (s : State),
    let r := resolveExt 0x01#6 b s
    r.2.pc = s.pc + instrLength (.jsr b) ∧
    (s.skip = false → exec (.jsr b) s =
      .next ((memWrite (r.2.sp - 1#16) r.2.pc (r.2.setSp (r.2.sp - 1#16))).setPc r.1.value)) ∧
    (s.skip = true → exec (.jsr b) s = .next (r.2.setSkip false))

/-- The 63 constructors extUnimpl00 and extUnimpl02 to extUnimpl3F complete under either policy: operand B is resolved
with its side effects, `unimpl` is pulsed, and under the fault policy the word is recorded. The spec's own decision D6
(log 13). -/
def Obligations.UnimplementedExtendedOpcodesFollowThePolicy : Prop :=
  ∀ (i : Instr) (e : BitVec 6) (b : Operand) (s : State), i.form = .ext e b → e ≠ 0x01#6 → s.skip = false →
    (s.policy = .nop → exec i s = .next ((resolveExt e b s).2.setUnimpl true)) ∧
    (s.policy = .fault →
      exec i s = .next (((resolveExt e b s).2.setUnimpl true).setFaulted (some (encExt e b.mode))))

/-! ### No bit of an arithmetic result is lost -/

/-- ADD, SUB and MUL: the result and the overflow word together are the exact sum, difference and product, whatever the
destination, unless it is `O` itself. -/
def Obligations.SumDifferenceProductAreExact : Prop :=
  ∀ (a b : Operand) (s t : State) (v : Word), s.mem.wf = true → s.skip = false →
    (let r := resolveBase 0x2#4 a b s
     exec (.add a b) s = .next t → r.ra.loc ≠ .reg .o → readLoc t r.ra.loc = some v →
       v.toNat + 65536 * t.o.toNat = r.ra.value.toNat + r.rb.value.toNat) ∧
    (let r := resolveBase 0x3#4 a b s
     exec (.sub a b) s = .next t → r.ra.loc ≠ .reg .o → readLoc t r.ra.loc = some v →
       (v.toNat : Int) - (if t.o = 0#16 then 0 else 65536) = (r.ra.value.toNat : Int) - r.rb.value.toNat) ∧
    (let r := resolveBase 0x4#4 a b s
     exec (.mul a b) s = .next t → r.ra.loc ≠ .reg .o → readLoc t r.ra.loc = some v →
       v.toNat + 65536 * t.o.toNat = r.ra.value.toNat * r.rb.value.toNat)

/-- DIV, SHR and MOD: the quotient with its 16 fractional bits is the exact `65536 a / b`, a right shift likewise, and the
remainder is the one of the exact quotient. For SHR the exact reading is the spec's own decision D8 (log 14). -/
def Obligations.QuotientsAndRemaindersAreExact : Prop :=
  ∀ (a b : Operand) (s t : State) (v : Word), s.mem.wf = true → s.skip = false →
    (let r := resolveBase 0x5#4 a b s
     exec (.div a b) s = .next t → r.ra.loc ≠ .reg .o → readLoc t r.ra.loc = some v → r.rb.value ≠ 0#16 →
       (65536 * v.toNat + t.o.toNat) * r.rb.value.toNat ≤ 65536 * r.ra.value.toNat ∧
       65536 * r.ra.value.toNat < (65536 * v.toNat + t.o.toNat + 1) * r.rb.value.toNat) ∧
    (let r := resolveBase 0x8#4 a b s
     exec (.shr a b) s = .next t → r.ra.loc ≠ .reg .o → readLoc t r.ra.loc = some v →
       65536 * v.toNat + t.o.toNat = 65536 * r.ra.value.toNat / 2 ^ r.rb.value.toNat) ∧
    (let r := resolveBase 0x6#4 a b s
     exec (.mod a b) s = .next t → readLoc t r.ra.loc = some v → r.rb.value ≠ 0#16 →
       v.toNat < r.rb.value.toNat ∧ ∃ q, r.ra.value.toNat = q * r.rb.value.toNat + v.toNat)

/-! ### Frames: what an instruction leaves unchanged -/

/-- SET to XOR: registers other than the destination, SP but for a POP or PUSH, `O` unless the opcode writes it, and every
word of memory but the one at operand A's location. A short literal as operand A stores nothing (R103). -/
def Obligations.WriteBackFrame : Prop :=
  ∀ (i : Instr) (op : BitVec 4) (a b : Operand) (s t : State), i.form = .base op a b → writesResult op = true →
    s.skip = false → exec i s = .next t →
    let l := (resolveBase op a b s).ra.loc
    (∀ q, l ≠ .reg (.gp q) → t.gp.get q = s.gp.get q) ∧
    (l ≠ .reg .sp → t.sp = s.sp + stackShift a + stackShift b) ∧
    (l ≠ .reg .o → writesOverflow op = false → t.o = s.o) ∧
    (l ≠ .reg .pc → t.pc = s.pc + instrLength i) ∧
    (∀ x, l ≠ .mem x → memRead x t = memRead x s) ∧
    t.skip = false ∧ t.faulted = s.faulted ∧ t.unimpl = false ∧ t.latch.opword = i.form.word ∧ SameSurroundings s t

/-- IFE to IFB: every register, `O` and all of memory; SP moves by a POP or PUSH operand only. -/
def Obligations.ConditionalFrame : Prop :=
  ∀ (i : Instr) (op : BitVec 4) (a b : Operand) (s t : State), i.form = .base op a b → isConditional op = true →
    s.skip = false → exec i s = .next t →
    t.gp = s.gp ∧ t.mem = s.mem ∧ t.o = s.o ∧ t.sp = s.sp + stackShift a + stackShift b ∧
    t.pc = s.pc + instrLength i ∧ t.faulted = s.faulted ∧ t.unimpl = false ∧ t.latch.opword = i.form.word ∧
    SameSurroundings s t

/-- JSR: every general-purpose register, `O`, and every word of memory but the one pushed. -/
def Obligations.JsrFrame : Prop :=
  ∀ (b : Operand) (s t : State), s.skip = false → exec (.jsr b) s = .next t →
    t.gp = s.gp ∧ t.o = s.o ∧ t.sp = s.sp + stackShift b - 1#16 ∧
    (∀ x, x ≠ s.sp + stackShift b - 1#16 → memRead x t = memRead x s) ∧
    t.skip = false ∧ t.faulted = s.faulted ∧ t.unimpl = false ∧
    t.latch.opword = (Instr.jsr b).form.word ∧ SameSurroundings s t

/-- The 63 unimplemented extended opcodes, under either policy: registers, `O` and memory; SP moves by a POP or PUSH
operand only. The spec's own decision D6 (log 13). -/
def Obligations.UnimplementedExtendedFrame : Prop :=
  ∀ (i : Instr) (e : BitVec 6) (b : Operand) (s t : State), i.form = .ext e b → e ≠ 0x01#6 → s.skip = false →
    exec i s = .next t →
    t.gp = s.gp ∧ t.mem = s.mem ∧ t.o = s.o ∧ t.sp = s.sp + stackShift b ∧ t.pc = s.pc + instrLength i ∧
    t.skip = false ∧ (s.policy = .nop → t.faulted = s.faulted) ∧ t.latch.opword = i.form.word ∧ SameSurroundings s t

/-- A skipped tick, for every instruction: PC moves past the whole instruction, SP moves by POP and PUSH operands, the
skip is cleared, and nothing else of the machine changes. The SP change is the spec's own decision D4 (log 11). -/
def Obligations.SkippedTickOnlyPassesTheInstruction : Prop :=
  ∀ (i : Instr) (s : State), s.skip = true →
    ∃ t, exec i s = .next t ∧ t.pc = s.pc + instrLength i ∧ t.sp = s.sp + formStackShift i.form ∧ t.skip = false ∧
      t.gp = s.gp ∧ t.o = s.o ∧ t.mem = s.mem ∧ t.faulted = s.faulted ∧ t.unimpl = false ∧
      t.latch.opword = i.form.word ∧ SameSurroundings s t

/-- PC ends at the same place whether or not an instruction that does not write PC is skipped, for any length. -/
def Obligations.PcEndsAtTheSamePlaceSkippedOrNot : Prop :=
  ∀ (i : Instr) (s t u : State), formWritesPc i.form = false →
    exec i (s.setSkip false) = .next t → exec i (s.setSkip true) = .next u →
    t.pc = s.pc + instrLength i ∧ u.pc = t.pc

/-! ### The whole machine -/

/-- Every step keeps the invariant, whichever agent moves. -/
def Obligations.EveryStepKeepsTheInvariant : Prop :=
  ∀ s t : State, s.Inv → step s = .next t → t.Inv

/-- The state after construction meets the invariant. -/
def Obligations.ResetMeetsTheInvariant : Prop := State.reset.Inv

/-- Under the nop policy nothing stops the machine: with no image load due, a run goes on for any number of steps. That a
turn of a Paused Engine passes is this model's choice (log 3). -/
def Obligations.NopRunsNeverStop : Prop :=
  ∀ (n : Nat) (s : State), s.Inv → s.policy = .nop → (∀ ws k, Move.loadImage ws k ∉ s.moves) → RunsOn n s

/-- The only fault is Unimplemented, and only a faulted Engine's turn raises it. That the turn answers a fault is this
model's choice (log 4). -/
def Obligations.OnlyTheFaultedEngineFaults : Prop :=
  ∀ (s : State) (f : Fault), step s = .fault f ↔ ∃ w, f = .unimplemented w ∧ s.faulted = some w ∧ s.engineDue

/-- The only refusals are calls of LoadImage that break its precondition. That they are refused is the spec's own
decision D13; which precondition is named first is this model's choice (log 17). -/
def Obligations.OnlyBrokenImageLoadsAreRefused : Prop :=
  ∀ (s : State) (why : Refusal), step s = .refused why ↔
    ∃ words n ms, s.moves = .loadImage words n :: ms ∧
      (s.run = .running ∧ why = .imageWhileRunning ∨
       s.run = .paused ∧ 65536 < n ∧ why = .imageTooLong ∨
       s.run = .paused ∧ n ≤ 65536 ∧ n ≠ words.length ∧ why = .imageLengthMismatch)

/-- A fault is terminal: no move of the host clears it or changes the registers. The spec's own decision D6 (log 13). -/
def Obligations.FaultedIsTerminal : Prop :=
  ∀ (s t : State) (w : Word), s.faulted = some w → step s = .next t →
    t.faulted = some w ∧ t.gp = s.gp ∧ t.sp = s.sp ∧ t.pc = s.pc ∧ t.o = s.o ∧ t.skip = s.skip

/-- A general-purpose register changes only by the write-back of a base instruction whose operand A is that register. -/
def Obligations.OnlyWriteBackChangesGeneralRegisters : Prop :=
  ∀ (s t : State) (q : GpReg), step s = .next t → t.gp.get q ≠ s.gp.get q →
    s.engineDue ∧ s.tickEnabled ∧ s.skip = false ∧
      ∃ op b, (fetchInstr s).form = .base op (.reg q) b ∧ writesResult op = true

/-- PC moves by the length of the instruction, or is written by a result stored through mode 0x1C or by JSR, and by
nothing else. -/
def Obligations.OnlyTicksMovePc : Prop :=
  ∀ s t : State, step s = .next t → t.pc ≠ s.pc →
    s.engineDue ∧ s.tickEnabled ∧
      (t.pc = s.pc + instrLength (fetchInstr s) ∨ s.skip = false ∧ formWritesPc (fetchInstr s).form = true)

/-- `O` changes only by an executed opcode that defines an overflow word, or by a result stored through mode 0x1D. -/
def Obligations.OnlyOverflowOpcodesOrItsModeChangeO : Prop :=
  ∀ s t : State, step s = .next t → t.o ≠ s.o →
    s.engineDue ∧ s.tickEnabled ∧ s.skip = false ∧
      ∃ op a b, (fetchInstr s).form = .base op a b ∧ (writesOverflow op = true ∨ writesResult op = true ∧ a = .o)

/-- No instruction reads `O` but through mode 0x1D: without that mode, another `O` before the tick changes nothing after
it but `O`, and not even `O` where the opcode writes it. -/
def Obligations.OIsReadOnlyThroughItsMode : Prop :=
  ∀ (i : Instr) (s t : State) (v : Word),
    (∀ op a b, i.form = .base op a b → a ≠ .o ∧ b ≠ .o) → (∀ e b, i.form = .ext e b → b ≠ .o) →
    exec i s = .next t →
    exec i (s.setO v) = .next (t.setO v) ∧ t.o = s.o ∨
    exec i (s.setO v) = .next t ∧ s.skip = false ∧ ∃ op a b, i.form = .base op a b ∧ writesOverflow op = true

/-- Only two things change a word of memory: an image load, and the one store of an executed tick, at operand A's location
or at the slot JSR pushes to. -/
def Obligations.OnlyOneStoreOrAnImageLoadChangesMemory : Prop :=
  ∀ (s t : State) (x : Word), step s = .next t → memRead x t ≠ memRead x s →
    (∃ words n ms, s.moves = .loadImage words n :: ms) ∨
    (s.engineDue ∧ s.tickEnabled ∧ s.skip = false ∧
      ((∃ op a b, (fetchInstr s).form = .base op a b ∧ writesResult op = true ∧
          (resolveBase op a b s).ra.loc = .mem x) ∨
       ∃ b, (fetchInstr s).form = .ext 0x01#6 b ∧ x = s.sp + stackShift b - 1#16))

/-- After a tick `skip` is set exactly when an IF executed and its condition failed. So a skipped IF never chains. -/
def Obligations.SkipIsSetExactlyByAFailedCondition : Prop :=
  ∀ (i : Instr) (s t : State), exec i s = .next t →
    (t.skip = true ↔ s.skip = false ∧ ∃ op a b, i.form = .base op a b ∧
      conditionFails op (resolveBase op a b s).ra.value (resolveBase op a b s).rb.value)

/-- The status output of a tick is 1 exactly when an unimplemented extended opcode executed. The spec's own decision D6
(log 7, log 13). -/
def Obligations.UnimplPulsesExactlyOnExecution : Prop :=
  ∀ (i : Instr) (s t : State), exec i s = .next t →
    (t.unimpl = true ↔ s.skip = false ∧ ∃ e b, i.form = .ext e b ∧ e ≠ 0x01#6)

/-- Neither the decode latch nor the status output can be observed: whatever they hold, a tick does the same. -/
def Obligations.LatchAndStatusOutputAreNeverRead : Prop :=
  ∀ (i : Instr) (s t : State) (l : Latch) (u : Bool), exec i s = .next t →
    exec i ((s.setLatch l).setUnimpl u) = .next (t.setLatch { l with opword := t.latch.opword })

/-! ### Run control, image load and reset -/

/-- R275, R276, R277: the host's three control operations, each with nothing else changed but the move consumed. That a
pending skip survives them is the spec's own decision D22 (log 22), and that the status output does is this model's choice
(log 7). -/
def Obligations.ControlPortOperations : Prop :=
  ∀ (s : State) (ms : List Move),
    (s.moves = .start :: ms → step s = .next ((s.setMoves ms).setRun .running)) ∧
    (s.moves = .stop :: ms → step s = .next ((s.setMoves ms).setRun .paused)) ∧
    (s.moves = .togglePause :: ms →
      step s = .next ((s.setMoves ms).setRun (if s.run = .running then .paused else .running)))

/-- Nothing outside the Engine changes its registers, its skip flag, its latch or its fault state. Registers and skip over a
LoadImage are the spec's own decision D21 (log 17), skip over Stop and Start its decision D22 (log 22), `faulted` its
decision D6 (log 13). That a host move keeps the status output is this model's choice (log 7). -/
def Obligations.HostMovesLeaveTheEngineAlone : Prop :=
  ∀ (s t : State) (m : Move) (ms : List Move), m ≠ .tick → s.moves = m :: ms → step s = .next t →
    t.gp = s.gp ∧ t.sp = s.sp ∧ t.pc = s.pc ∧ t.o = s.o ∧ t.skip = s.skip ∧ t.latch = s.latch ∧
      t.faulted = s.faulted ∧ t.unimpl = s.unimpl ∧ t.policy = s.policy ∧ t.moves = ms

/-- R252: while Paused no register, skip flag or memory word changes but by an image load, and only Start or TogglePause
wakes the Engine; no instruction changes the run state. That a LoadImage keeps registers and skip is the spec's own decision
D21 (log 17), and that Stop and Start keep a pending skip its decision D22 (log 22). -/
def Obligations.PausedKeepsAllStateUntilWoken : Prop :=
  (∀ s t : State, s.run = .paused → step s = .next t →
    t.gp = s.gp ∧ t.sp = s.sp ∧ t.pc = s.pc ∧ t.o = s.o ∧ t.skip = s.skip ∧
    ((∃ words n ms, s.moves = .loadImage words n :: ms) ∨ t.mem = s.mem) ∧
    (t.run = .running → ∃ ms, s.moves = .start :: ms ∨ s.moves = .togglePause :: ms)) ∧
  ∀ (i : Instr) (s t : State), exec i s = .next t → t.run = s.run

/-- LoadImage while Paused: word `k` of the image lands at address `k`, every later word is 0, memory stays canonical, and
no register changes. The spec's own decisions D13 and D21 (log 17). That the status output is kept is this model's choice
(log 7). -/
def Obligations.LoadImageReplacesMemoryOnly : Prop :=
  ∀ (s : State) (words : List Word) (ms : List Move), s.moves = .loadImage words words.length :: ms →
    s.run = .paused → words.length ≤ 65536 →
    ∃ t, step s = .next t ∧ t = (s.setMoves ms).setMem t.mem ∧ t.mem.wf = true ∧
      ∀ x, memRead x t = words.getD x.toNat 0#16

/-- R272: construct, load, start; the Engine then runs image word 0. That the block starts Paused is the spec's own decision
D9 (log 15). -/
def Obligations.BootRunsTheImageFromAddressZero : Prop :=
  ∀ words : List Word, words.length ≤ 65536 →
    State.reset.run = .paused ∧
    ∃ t, Sys2Proof.core.run 2 (State.reset.setMoves [.loadImage words words.length, .start]) = .next t ∧
      t.run = .running ∧ t.pc = 0#16 ∧ (∀ x, memRead x t = words.getD x.toNat 0#16) ∧
      step t = exec (decodeAt (words.getD 0 0#16) (words.getD 1 0#16) (words.getD 2 0#16)) t

/-- The state after construction. Registers and memory are the source's; the reset values of `run`, `skip`, the latch and
`faulted` are the spec's own decisions D6, D9 and D10 (log 15), and those of `unimpl`, `policy` and `moves` this model's
(log 2, 6, 7). -/
def Obligations.StateAfterConstruction : Prop :=
  (∀ q, State.reset.gp.get q = 0#16) ∧ State.reset.sp = 0#16 ∧ State.reset.pc = 0#16 ∧ State.reset.o = 0#16 ∧
  (∀ x, memRead x State.reset = 0#16) ∧ State.reset.skip = false ∧ State.reset.run = .paused ∧
  State.reset.faulted = none ∧ State.reset.latch = ⟨0#16, 0#16, 0#16, 0#16⟩ ∧ State.reset.unimpl = false ∧
  State.reset.policy = .nop ∧ State.reset.moves = []

/-! ### Memory, the image file and the screen -/

/-- R63: a store is read back, its only effect is that store, and the screen window is no exception. -/
def Obligations.MemWriteStoresOneWordOnly : Prop :=
  ∀ (s : State) (addr v : Word), s.mem.wf = true →
    memRead addr (memWrite addr v s) = v ∧
    (∀ x, x ≠ addr → memRead x (memWrite addr v s) = memRead x s) ∧
    memWrite addr v s = s.setMem (memWrite addr v s).mem

/-- Canonical memories that read the same at every address are equal as data (this model's form of memory, log 1). -/
def Obligations.CanonicalMemoriesAreEqualData : Prop :=
  ∀ m n : Memory, m.wf = true → n.wf = true → (∀ x : Word, m.get x.toNat = n.get x.toNat) → m = n

/-- R68: the words of an image file, and where they land. -/
def Obligations.ImageFilePacking : Prop :=
  ∀ f : List Byte,
    (packImage f).length = (f.length + 1) / 2 ∧
    (∀ i, 2 * i < f.length → (packImage f)[i]? = some (f.getD (2 * i) 0#8 ++ f.getD (2 * i + 1) 0#8)) ∧
    ∀ i, i < (packImage f).length → some ((Memory.image 0 (packImage f)).get i) = (packImage f)[i]?

/-- R66 for a call during which nothing moves: 504 words, word `k` from address 0xE000 + k. -/
def Obligations.ReadScreenCopiesTheWindow : Prop :=
  ∀ s : State, (readScreen s).length = 504 ∧
    ∀ k, k < 504 → (readScreen s)[k]? = some (memRead (BitVec.ofNat 16 (0xE000 + k)) s)

/-- A ReadScreen that overlaps one tick: both clean frames are admitted; in any admitted frame each word is the one before
or the one after the tick, and a word unlike the one before is at the address the tick stored to. The spec's own decision
D11 (log 18). -/
def Obligations.ScreenFrameOverlappingATick : Prop :=
  ∀ s t : State, s.engineDue → s.tickEnabled → step s = .next t →
    FrameAdmitted [s, t] (readScreen s) ∧ FrameAdmitted [s, t] (readScreen t) ∧
    ∀ (frame : List Word) (k : Nat), FrameAdmitted [s, t] frame → k < 504 →
      let x := BitVec.ofNat 16 (0xE000 + k)
      frame[k]? = some (memRead x s) ∨
      frame[k]? = some (memRead x t) ∧ s.skip = false ∧
        ((∃ op a b, (fetchInstr s).form = .base op a b ∧ writesResult op = true ∧
            (resolveBase op a b s).ra.loc = .mem x) ∨
         ∃ b, (fetchInstr s).form = .ext 0x01#6 b ∧ x = s.sp + stackShift b - 1#16)

/-! ### Instructions together -/

/-- `SET PUSH, v` then `SET x, POP` leaves `x = v` and restores SP. -/
def Obligations.PushThenPopRoundTrip : Prop :=
  ∀ (b : Operand) (q : GpReg) (s t u : State), s.mem.wf = true → s.skip = false → b ≠ .pop → b ≠ .push →
    exec (.set .push b) s = .next t → exec (.set (.reg q) .pop) t = .next u →
    u.gp.get q = (resolveBase 0x1#4 .push b s).rb.value ∧ u.sp = s.sp

/-- JSR then `SET PC, POP` continues at the instruction after the JSR, with SP as it was before the push. -/
def Obligations.JsrThenReturnRoundTrip : Prop :=
  ∀ (b : Operand) (s t u : State), s.mem.wf = true → s.skip = false →
    exec (.jsr b) s = .next t → exec (.set .pc .pop) t = .next u →
    u.pc = s.pc + instrLength (.jsr b) ∧ u.sp = s.sp + stackShift b

/-- A store is seen by the next fetch, and a store to the running instruction's own next word does not change its tick.
The spec's own decision D18 (log 9). -/
def Obligations.StoresAreSeenByTheNextFetch : Prop :=
  ∀ (v : Word) (s t : State), s.mem.wf = true → s.skip = false →
    (exec (.set (.mem (s.pc + 3#16)) (.lit v)) s = .next t → (fetchInstr t).form.word = v) ∧
    (exec (.set (.mem (s.pc + 1#16)) (.lit v)) s = .next t → memRead (s.pc + 1#16) t = v ∧ t.pc = s.pc + 3#16)

/-! ### A screen read and an image load -/

/-- A ReadScreen that lasts across a LoadImage: its frame is one of the run up to the load or one of the run after it, never
a mix, and both kinds are admitted. With nothing but the load during the call, the frame is the old window or the new one
(R67, R76). Word by word, a frame is as in R73, the spec's own decision D11 (log 18). -/
def Obligations.ReadScreenNeverMixesImages : Prop :=
  (∀ (before after : List State) (s t : State) (frame : List Word), s.imageLoadDue →
    IsRun (before ++ s :: t :: after) →
    (FrameAdmitted (before ++ s :: t :: after) frame ↔
      FrameAdmitted (before ++ [s]) frame ∨ FrameAdmitted (t :: after) frame)) ∧
  ∀ (s t : State) (frame : List Word), s.imageLoadDue → step s = .next t →
    (FrameAdmitted [s, t] frame ↔ frame = readScreen s ∨ frame = readScreen t)
end

