-- ==== Sys2Proof/Laws/Decode.lean ====
section
/-! SUPPORT. Laws of the encoding: each field of an encoded word reads back, and each mode number means its operand. -/

namespace Sys2Proof

/-! ### The fields of an encoded word -/

theorem getLsbD_encBase (op : BitVec 4) (a b : BitVec 6) (k : Nat) :
    (encBase op a b).getLsbD k =
      (decide (k < 16) && (!decide (k < 10) && b.getLsbD (k - 10) || !decide (k < 4) && a.getLsbD (k - 4) ||
        op.getLsbD k)) := by
  by_cases hk : k < 16
  · have h10 : k - 10 < 16 := by omega
    have h4 : k - 4 < 16 := by omega
    simp only [encBase, BitVec.getLsbD_or, BitVec.getLsbD_shiftLeft, BitVec.getLsbD_setWidth, hk, h10, h4,
      decide_true, Bool.true_and]
  · simp only [encBase, BitVec.getLsbD_or, BitVec.getLsbD_shiftLeft, BitVec.getLsbD_setWidth, hk, decide_false,
      Bool.false_and, Bool.or_self]

/-- Bits 3:0 hold the opcode (R91). -/
@[simp] theorem bits_encBase_op (op : BitVec 4) (a b : BitVec 6) : bits (encBase op a b) 0 4 = op := by
  refine BitVec.eq_of_getLsbD_eq fun i hi => ?_
  rw [bits, BitVec.getLsbD_extractLsb', getLsbD_encBase]
  simp [hi, show i < 16 by omega, show i < 10 by omega]

/-- Bits 9:4 hold operand A's mode (R91). -/
@[simp] theorem bits_encBase_a (op : BitVec 4) (a b : BitVec 6) : bits (encBase op a b) 4 6 = a := by
  refine BitVec.eq_of_getLsbD_eq fun i hi => ?_
  rw [bits, BitVec.getLsbD_extractLsb', getLsbD_encBase, BitVec.getLsbD_of_ge op (4 + i) (by omega)]
  simp [hi, show 4 + i < 16 by omega, show 4 + i < 10 by omega]

/-- Bits 15:10 hold operand B's mode (R91). -/
@[simp] theorem bits_encBase_b (op : BitVec 4) (a b : BitVec 6) : bits (encBase op a b) 10 6 = b := by
  refine BitVec.eq_of_getLsbD_eq fun i hi => ?_
  rw [bits, BitVec.getLsbD_extractLsb', getLsbD_encBase, BitVec.getLsbD_of_ge op (10 + i) (by omega),
    BitVec.getLsbD_of_ge a (10 + i - 4) (by omega)]
  simp [hi, show 10 + i < 16 by omega]

theorem encExt_eq_encBase (e b : BitVec 6) : encExt e b = encBase 0 e b := by
  simp [encExt, encBase]

/-- A word is its three fields put together. -/
theorem encBase_bits (w : Word) : encBase (bits w 0 4) (bits w 4 6) (bits w 10 6) = w := by
  refine BitVec.eq_of_getLsbD_eq fun i hi => ?_
  rw [getLsbD_encBase]
  simp only [bits, BitVec.getLsbD_extractLsb', hi, decide_true, Bool.true_and]
  by_cases h10 : i < 10
  · by_cases h4 : i < 4
    · simp only [h10, h4, decide_true, Bool.not_true, Bool.false_and, Bool.true_and, Bool.false_or, Nat.zero_add]
    · simp only [h10, h4, show i - 4 < 6 by omega, show 4 + (i - 4) = i by omega, decide_true, decide_false,
        Bool.not_true, Bool.not_false, Bool.false_and, Bool.true_and, Bool.false_or, Bool.or_false]
  · simp only [h10, show ¬ i < 4 by omega, show i - 10 < 6 by omega, show ¬ i - 4 < 6 by omega,
      show 10 + (i - 10) = i by omega, decide_true, decide_false, Bool.not_false, Bool.false_and, Bool.true_and,
      Bool.and_false, Bool.or_false]

theorem decodeFields_encBase {op : BitVec 4} (h : op ≠ 0#4) (a b : BitVec 6) :
    decodeFields (encBase op a b) = .base op a b := by
  simp [decodeFields, h]

theorem decodeFields_encExt (e b : BitVec 6) : decodeFields (encExt e b) = .ext e b := by
  simp [decodeFields, encExt_eq_encBase]

/-- The base format is used only for an opcode that is not 0 (R91, R93). -/
theorem decodeFields_base_ne_zero {w : Word} {op : BitVec 4} {a b : BitVec 6} (h : decodeFields w = .base op a b) :
    op ≠ 0#4 := by
  unfold decodeFields at h
  split at h
  · cases h
    assumption
  · cases h

/-! ### Operands -/

/-- The words an operand adds are those its mode number asks for (R98). -/
theorem words_length {x : Operand} (h : x.wf = true) : x.words.length = (needsWord x.mode).toNat := by
  cases x with
  | reg r => cases r <;> rfl
  | ind r => cases r <;> rfl
  | idx r n => cases r <;> rfl
  | short v =>
    have hv : v.toNat < 32 := by simpa [Operand.wf] using h
    have hm : ∀ k : Fin 32, needsWord (0x20#6 + (BitVec.ofNat 16 k).setWidth 6) = false := by decide
    have := hm ⟨v.toNat, hv⟩
    simp only [BitVec.ofNat_toNat, BitVec.setWidth_eq] at this
    simp [Operand.words, Operand.mode, this]
  | _ => rfl

theorem base_length {op : BitVec 4} {a b : Operand} (hop : op ≠ 0#4) (ha : a.wf = true) (hb : b.wf = true) :
    ((Form.base op a b).word :: (Form.base op a b).words).length = lengthOf (Form.base op a b).word := by
  simp [lengthOf, Form.word, Form.words, decodeFields_encBase hop, Fields.nextWords, words_length ha, words_length hb]
  omega

theorem ext_length {e : BitVec 6} {b : Operand} (hb : b.wf = true) :
    ((Form.ext e b).word :: (Form.ext e b).words).length = lengthOf (Form.ext e b).word := by
  simp [lengthOf, Form.word, Form.words, decodeFields_encExt, Fields.nextWords, words_length hb]
  omega

/-! ### Operands and instructions go through their numbers -/

/-- The mode number of an operand means the operand (R95). -/
theorem operandOf_mode {x : Operand} (h : x.wf = true) (n : Word) (hn : ∀ k, x.words = [k] → n = k) :
    operandOf x.mode n = x := by
  cases x with
  | reg r => cases r <;> rfl
  | ind r => cases r <;> rfl
  | idx r k =>
    obtain rfl := hn k rfl
    cases r <;> (simp only [Operand.mode]; rfl)
  | mem k =>
    obtain rfl := hn k rfl
    rfl
  | lit k =>
    obtain rfl := hn k rfl
    rfl
  | short v =>
    have hv : v.toNat < 32 := by simpa [Operand.wf] using h
    have hm : ∀ (k : Fin 32) n, operandOf (0x20#6 + (BitVec.ofNat 16 k).setWidth 6) n = .short (BitVec.ofNat 16 k) := by
      intro k n
      fin_cases k <;> rfl
    simpa [Operand.mode] using hm ⟨v.toNat, hv⟩ n
  | _ => rfl

/-- The operand a mode number means has that mode number, is well-formed and takes the words the mode asks for. -/
theorem mode_operandOf (m : BitVec 6) (n : Word) :
    (operandOf m n).mode = m ∧ (operandOf m n).wf = true ∧
      (operandOf m n).words = if needsWord m then [n] else [] := by
  have h : ∀ k : Fin 64, (operandOf (BitVec.ofFin k) n).mode = BitVec.ofFin k ∧
      (operandOf (BitVec.ofFin k) n).wf = true ∧
      (operandOf (BitVec.ofFin k) n).words = if needsWord (BitVec.ofFin k) then [n] else [] := by
    intro k
    fin_cases k <;> exact ⟨rfl, rfl, rfl⟩
  exact h m.toFin

theorem baseInstr_of_form {i : Instr} {op : BitVec 4} {a b : Operand} (h : i.form = .base op a b) :
    baseInstr op a b = i := by
  cases i <;> cases h <;> rfl

theorem extInstr_of_form {i : Instr} {e : BitVec 6} {b : Operand} (h : i.form = .ext e b) : extInstr e b = i := by
  cases i <;> cases h <;> rfl

theorem form_baseInstr {op : BitVec 4} (h : op ≠ 0#4) (a b : Operand) : (baseInstr op a b).form = .base op a b := by
  have hk : ∀ k : Fin 16, BitVec.ofFin (w := 4) k ≠ 0#4 →
      (baseInstr (BitVec.ofFin k) a b).form = .base (BitVec.ofFin k) a b := by
    intro k hk
    fin_cases k
    · exact absurd rfl hk
    all_goals rfl
  exact hk op.toFin h

theorem form_extInstr (e : BitVec 6) (b : Operand) : (extInstr e b).form = .ext e b := by
  have hk : ∀ k : Fin 64, (extInstr (BitVec.ofFin k) b).form = .ext (BitVec.ofFin k) b := by
    intro k
    fin_cases k <;> rfl
  exact hk e.toFin

/-- An instruction is well-formed when the operands of its form are. -/
theorem wf_of_form {i : Instr} : i.wf = match i.form with
    | .base _ a b => a.wf && b.wf
    | .ext _ b => b.wf := by
  cases i <;> rfl

end Sys2Proof
end

