-- ==== Sys2Proof/Laws/State.lean ====
section
/-! SUPPORT. One lemma per field per update of the state, so that no later proof unfolds a record update. -/

namespace Sys2Proof.Machine

section
variable (s : State) (g : Gp)
@[simp] theorem setGp_gp : (s.setGp g).gp = g := rfl
@[simp] theorem setGp_sp : (s.setGp g).sp = s.sp := rfl
@[simp] theorem setGp_pc : (s.setGp g).pc = s.pc := rfl
@[simp] theorem setGp_o : (s.setGp g).o = s.o := rfl
@[simp] theorem setGp_skip : (s.setGp g).skip = s.skip := rfl
@[simp] theorem setGp_latch : (s.setGp g).latch = s.latch := rfl
@[simp] theorem setGp_run : (s.setGp g).run = s.run := rfl
@[simp] theorem setGp_faulted : (s.setGp g).faulted = s.faulted := rfl
@[simp] theorem setGp_mem : (s.setGp g).mem = s.mem := rfl
@[simp] theorem setGp_unimpl : (s.setGp g).unimpl = s.unimpl := rfl
@[simp] theorem setGp_policy : (s.setGp g).policy = s.policy := rfl
@[simp] theorem setGp_moves : (s.setGp g).moves = s.moves := rfl
end

section
variable (s : State) (v : Word)
@[simp] theorem setSp_gp : (s.setSp v).gp = s.gp := rfl
@[simp] theorem setSp_sp : (s.setSp v).sp = v := rfl
@[simp] theorem setSp_pc : (s.setSp v).pc = s.pc := rfl
@[simp] theorem setSp_o : (s.setSp v).o = s.o := rfl
@[simp] theorem setSp_skip : (s.setSp v).skip = s.skip := rfl
@[simp] theorem setSp_latch : (s.setSp v).latch = s.latch := rfl
@[simp] theorem setSp_run : (s.setSp v).run = s.run := rfl
@[simp] theorem setSp_faulted : (s.setSp v).faulted = s.faulted := rfl
@[simp] theorem setSp_mem : (s.setSp v).mem = s.mem := rfl
@[simp] theorem setSp_unimpl : (s.setSp v).unimpl = s.unimpl := rfl
@[simp] theorem setSp_policy : (s.setSp v).policy = s.policy := rfl
@[simp] theorem setSp_moves : (s.setSp v).moves = s.moves := rfl
end

section
variable (s : State) (v : Word)
@[simp] theorem setPc_gp : (s.setPc v).gp = s.gp := rfl
@[simp] theorem setPc_sp : (s.setPc v).sp = s.sp := rfl
@[simp] theorem setPc_pc : (s.setPc v).pc = v := rfl
@[simp] theorem setPc_o : (s.setPc v).o = s.o := rfl
@[simp] theorem setPc_skip : (s.setPc v).skip = s.skip := rfl
@[simp] theorem setPc_latch : (s.setPc v).latch = s.latch := rfl
@[simp] theorem setPc_run : (s.setPc v).run = s.run := rfl
@[simp] theorem setPc_faulted : (s.setPc v).faulted = s.faulted := rfl
@[simp] theorem setPc_mem : (s.setPc v).mem = s.mem := rfl
@[simp] theorem setPc_unimpl : (s.setPc v).unimpl = s.unimpl := rfl
@[simp] theorem setPc_policy : (s.setPc v).policy = s.policy := rfl
@[simp] theorem setPc_moves : (s.setPc v).moves = s.moves := rfl
end

section
variable (s : State) (v : Word)
@[simp] theorem setO_gp : (s.setO v).gp = s.gp := rfl
@[simp] theorem setO_sp : (s.setO v).sp = s.sp := rfl
@[simp] theorem setO_pc : (s.setO v).pc = s.pc := rfl
@[simp] theorem setO_o : (s.setO v).o = v := rfl
@[simp] theorem setO_skip : (s.setO v).skip = s.skip := rfl
@[simp] theorem setO_latch : (s.setO v).latch = s.latch := rfl
@[simp] theorem setO_run : (s.setO v).run = s.run := rfl
@[simp] theorem setO_faulted : (s.setO v).faulted = s.faulted := rfl
@[simp] theorem setO_mem : (s.setO v).mem = s.mem := rfl
@[simp] theorem setO_unimpl : (s.setO v).unimpl = s.unimpl := rfl
@[simp] theorem setO_policy : (s.setO v).policy = s.policy := rfl
@[simp] theorem setO_moves : (s.setO v).moves = s.moves := rfl
end

section
variable (s : State) (b : Bool)
@[simp] theorem setSkip_gp : (s.setSkip b).gp = s.gp := rfl
@[simp] theorem setSkip_sp : (s.setSkip b).sp = s.sp := rfl
@[simp] theorem setSkip_pc : (s.setSkip b).pc = s.pc := rfl
@[simp] theorem setSkip_o : (s.setSkip b).o = s.o := rfl
@[simp] theorem setSkip_skip : (s.setSkip b).skip = b := rfl
@[simp] theorem setSkip_latch : (s.setSkip b).latch = s.latch := rfl
@[simp] theorem setSkip_run : (s.setSkip b).run = s.run := rfl
@[simp] theorem setSkip_faulted : (s.setSkip b).faulted = s.faulted := rfl
@[simp] theorem setSkip_mem : (s.setSkip b).mem = s.mem := rfl
@[simp] theorem setSkip_unimpl : (s.setSkip b).unimpl = s.unimpl := rfl
@[simp] theorem setSkip_policy : (s.setSkip b).policy = s.policy := rfl
@[simp] theorem setSkip_moves : (s.setSkip b).moves = s.moves := rfl
end

section
variable (s : State) (l : Latch)
@[simp] theorem setLatch_gp : (s.setLatch l).gp = s.gp := rfl
@[simp] theorem setLatch_sp : (s.setLatch l).sp = s.sp := rfl
@[simp] theorem setLatch_pc : (s.setLatch l).pc = s.pc := rfl
@[simp] theorem setLatch_o : (s.setLatch l).o = s.o := rfl
@[simp] theorem setLatch_skip : (s.setLatch l).skip = s.skip := rfl
@[simp] theorem setLatch_latch : (s.setLatch l).latch = l := rfl
@[simp] theorem setLatch_run : (s.setLatch l).run = s.run := rfl
@[simp] theorem setLatch_faulted : (s.setLatch l).faulted = s.faulted := rfl
@[simp] theorem setLatch_mem : (s.setLatch l).mem = s.mem := rfl
@[simp] theorem setLatch_unimpl : (s.setLatch l).unimpl = s.unimpl := rfl
@[simp] theorem setLatch_policy : (s.setLatch l).policy = s.policy := rfl
@[simp] theorem setLatch_moves : (s.setLatch l).moves = s.moves := rfl
end

section
variable (s : State) (r : RunState)
@[simp] theorem setRun_gp : (s.setRun r).gp = s.gp := rfl
@[simp] theorem setRun_sp : (s.setRun r).sp = s.sp := rfl
@[simp] theorem setRun_pc : (s.setRun r).pc = s.pc := rfl
@[simp] theorem setRun_o : (s.setRun r).o = s.o := rfl
@[simp] theorem setRun_skip : (s.setRun r).skip = s.skip := rfl
@[simp] theorem setRun_latch : (s.setRun r).latch = s.latch := rfl
@[simp] theorem setRun_run : (s.setRun r).run = r := rfl
@[simp] theorem setRun_faulted : (s.setRun r).faulted = s.faulted := rfl
@[simp] theorem setRun_mem : (s.setRun r).mem = s.mem := rfl
@[simp] theorem setRun_unimpl : (s.setRun r).unimpl = s.unimpl := rfl
@[simp] theorem setRun_policy : (s.setRun r).policy = s.policy := rfl
@[simp] theorem setRun_moves : (s.setRun r).moves = s.moves := rfl
end

section
variable (s : State) (f : Option Word)
@[simp] theorem setFaulted_gp : (s.setFaulted f).gp = s.gp := rfl
@[simp] theorem setFaulted_sp : (s.setFaulted f).sp = s.sp := rfl
@[simp] theorem setFaulted_pc : (s.setFaulted f).pc = s.pc := rfl
@[simp] theorem setFaulted_o : (s.setFaulted f).o = s.o := rfl
@[simp] theorem setFaulted_skip : (s.setFaulted f).skip = s.skip := rfl
@[simp] theorem setFaulted_latch : (s.setFaulted f).latch = s.latch := rfl
@[simp] theorem setFaulted_run : (s.setFaulted f).run = s.run := rfl
@[simp] theorem setFaulted_faulted : (s.setFaulted f).faulted = f := rfl
@[simp] theorem setFaulted_mem : (s.setFaulted f).mem = s.mem := rfl
@[simp] theorem setFaulted_unimpl : (s.setFaulted f).unimpl = s.unimpl := rfl
@[simp] theorem setFaulted_policy : (s.setFaulted f).policy = s.policy := rfl
@[simp] theorem setFaulted_moves : (s.setFaulted f).moves = s.moves := rfl
end

section
variable (s : State) (m : Memory)
@[simp] theorem setMem_gp : (s.setMem m).gp = s.gp := rfl
@[simp] theorem setMem_sp : (s.setMem m).sp = s.sp := rfl
@[simp] theorem setMem_pc : (s.setMem m).pc = s.pc := rfl
@[simp] theorem setMem_o : (s.setMem m).o = s.o := rfl
@[simp] theorem setMem_skip : (s.setMem m).skip = s.skip := rfl
@[simp] theorem setMem_latch : (s.setMem m).latch = s.latch := rfl
@[simp] theorem setMem_run : (s.setMem m).run = s.run := rfl
@[simp] theorem setMem_faulted : (s.setMem m).faulted = s.faulted := rfl
@[simp] theorem setMem_mem : (s.setMem m).mem = m := rfl
@[simp] theorem setMem_unimpl : (s.setMem m).unimpl = s.unimpl := rfl
@[simp] theorem setMem_policy : (s.setMem m).policy = s.policy := rfl
@[simp] theorem setMem_moves : (s.setMem m).moves = s.moves := rfl
end

section
variable (s : State) (b : Bool)
@[simp] theorem setUnimpl_gp : (s.setUnimpl b).gp = s.gp := rfl
@[simp] theorem setUnimpl_sp : (s.setUnimpl b).sp = s.sp := rfl
@[simp] theorem setUnimpl_pc : (s.setUnimpl b).pc = s.pc := rfl
@[simp] theorem setUnimpl_o : (s.setUnimpl b).o = s.o := rfl
@[simp] theorem setUnimpl_skip : (s.setUnimpl b).skip = s.skip := rfl
@[simp] theorem setUnimpl_latch : (s.setUnimpl b).latch = s.latch := rfl
@[simp] theorem setUnimpl_run : (s.setUnimpl b).run = s.run := rfl
@[simp] theorem setUnimpl_faulted : (s.setUnimpl b).faulted = s.faulted := rfl
@[simp] theorem setUnimpl_mem : (s.setUnimpl b).mem = s.mem := rfl
@[simp] theorem setUnimpl_unimpl : (s.setUnimpl b).unimpl = b := rfl
@[simp] theorem setUnimpl_policy : (s.setUnimpl b).policy = s.policy := rfl
@[simp] theorem setUnimpl_moves : (s.setUnimpl b).moves = s.moves := rfl
end

section
variable (s : State) (ms : List Move)
@[simp] theorem setMoves_gp : (s.setMoves ms).gp = s.gp := rfl
@[simp] theorem setMoves_sp : (s.setMoves ms).sp = s.sp := rfl
@[simp] theorem setMoves_pc : (s.setMoves ms).pc = s.pc := rfl
@[simp] theorem setMoves_o : (s.setMoves ms).o = s.o := rfl
@[simp] theorem setMoves_skip : (s.setMoves ms).skip = s.skip := rfl
@[simp] theorem setMoves_latch : (s.setMoves ms).latch = s.latch := rfl
@[simp] theorem setMoves_run : (s.setMoves ms).run = s.run := rfl
@[simp] theorem setMoves_faulted : (s.setMoves ms).faulted = s.faulted := rfl
@[simp] theorem setMoves_mem : (s.setMoves ms).mem = s.mem := rfl
@[simp] theorem setMoves_unimpl : (s.setMoves ms).unimpl = s.unimpl := rfl
@[simp] theorem setMoves_policy : (s.setMoves ms).policy = s.policy := rfl
@[simp] theorem setMoves_moves : (s.setMoves ms).moves = ms := rfl
end

/-- Two states with equal fields are equal. -/
theorem State.eq_of_fields {s t : State} (hgp : s.gp = t.gp) (hsp : s.sp = t.sp) (hpc : s.pc = t.pc) (ho : s.o = t.o)
    (hskip : s.skip = t.skip) (hlatch : s.latch = t.latch) (hrun : s.run = t.run) (hf : s.faulted = t.faulted)
    (hmem : s.mem = t.mem) (hu : s.unimpl = t.unimpl) (hp : s.policy = t.policy) (hm : s.moves = t.moves) : s = t := by
  cases s
  cases t
  simp only at *
  subst_vars
  rfl

@[simp] theorem Gp.get_set_same (g : Gp) (r : GpReg) (v : Word) : (g.set r v).get r = v := by
  cases r <;> rfl

theorem Gp.get_set_ne (g : Gp) {r q : GpReg} (h : q ≠ r) (v : Word) : (g.set r v).get q = g.get q := by
  cases r <;> cases q <;> first | rfl | exact absurd rfl h

/-- Two register files that agree on every register are equal. -/
theorem Gp.eq_of_get {g h : Gp} (he : ∀ r, g.get r = h.get r) : g = h := by
  cases g
  cases h
  simp only [Gp.mk.injEq]
  exact ⟨he .a, he .b, he .c, he .x, he .y, he .z, he .i, he .j⟩

end Sys2Proof.Machine
end

