-- ==== Sys2Proof/Laws/Memory.lean ====
section
/-! SUPPORT. Laws of memory: a read after a write, and that every memory operation keeps the canonical form. -/

namespace Sys2Proof.Machine

/-! ### Reads -/

@[simp] theorem Memory.get_nil (a : Nat) : Memory.get [] a = 0#16 := rfl

theorem Memory.get_cons (k : Nat) (w : Word) (m : Memory) (a : Nat) :
    Memory.get ((k, w) :: m) a = if k = a then w else Memory.get m a := rfl

/-- Below the first key of a canonical list every word is 0. -/
theorem Memory.get_of_lt {m : Memory} {lo a : Nat} (h : Memory.wfFrom lo m = true) (ha : a < lo) :
    Memory.get m a = 0#16 := by
  induction m generalizing lo with
  | nil => rfl
  | cons c m ih =>
    obtain ⟨k, w⟩ := c
    simp only [Memory.wfFrom, Bool.and_eq_true, decide_eq_true_eq] at h
    rw [Memory.get_cons, if_neg (by omega)]
    exact ih h.2 (by omega)

/-- A write leaves every other key alone, in any list. -/
theorem Memory.get_put_ne (m : Memory) {a x : Nat} (h : x ≠ a) (v : Word) :
    Memory.get (Memory.put m a v) x = Memory.get m x := by
  have h' : ¬ a = x := fun hc => h hc.symm
  induction m with
  | nil =>
    unfold Memory.put
    split <;> simp [Memory.get_cons, h']
  | cons c m ih =>
    obtain ⟨k, w⟩ := c
    unfold Memory.put
    split
    · split <;> simp [Memory.get_cons, h']
    · split
      · rename_i hk
        subst hk
        split <;> simp [Memory.get_cons, h']
      · simp [Memory.get_cons, ih]

/-- Reading after a write, at the same key and at any other, in a canonical memory. -/
theorem Memory.get_put {m : Memory} {lo : Nat} (h : Memory.wfFrom lo m = true) (a : Nat) (v : Word) (x : Nat) :
    Memory.get (Memory.put m a v) x = if x = a then v else Memory.get m x := by
  induction m generalizing lo with
  | nil =>
    unfold Memory.put
    by_cases hx : x = a
    · by_cases hv : v = 0#16 <;> simp [hv, hx, Memory.get_cons]
    · by_cases hv : v = 0#16 <;> simp [hv, hx, Ne.symm hx, Memory.get_cons]
  | cons c m ih =>
    obtain ⟨k, w⟩ := c
    simp only [Memory.wfFrom, Bool.and_eq_true, decide_eq_true_eq] at h
    have hbelow : ∀ y, y ≤ k → Memory.get m y = 0#16 := fun y hy => Memory.get_of_lt h.2 (by omega)
    unfold Memory.put
    by_cases hlt : a < k
    · rw [if_pos hlt]
      have ha := hbelow a (by omega)
      by_cases hv : v = 0#16
      · rw [if_pos hv]
        by_cases hx : x = a
        · subst hx
          rw [if_pos rfl, Memory.get_cons, if_neg (by omega), ha, hv]
        · rw [if_neg hx]
      · rw [if_neg hv, Memory.get_cons]
        by_cases hx : x = a
        · rw [if_pos hx.symm, if_pos hx]
        · rw [if_neg (fun hc => hx hc.symm), if_neg hx]
    · rw [if_neg hlt]
      by_cases hk : a = k
      · rw [if_pos hk]
        subst hk
        by_cases hv : v = 0#16
        · rw [if_pos hv]
          by_cases hx : x = a
          · rw [if_pos hx, hx, hbelow a (by omega), hv]
          · rw [if_neg hx, Memory.get_cons, if_neg (fun hc => hx hc.symm)]
        · rw [if_neg hv, Memory.get_cons, Memory.get_cons]
          by_cases hx : x = a
          · rw [if_pos hx.symm, if_pos hx]
          · rw [if_neg (fun hc => hx hc.symm), if_neg hx, if_neg (fun hc => hx hc.symm)]
      · rw [if_neg hk, Memory.get_cons, Memory.get_cons]
        by_cases hx : k = x
        · rw [if_pos hx, if_pos hx, if_neg (by omega)]
        · rw [if_neg hx, if_neg hx]
          exact ih h.2

/-- The image's words, and 0 past them. -/
theorem Memory.get_image (lo : Nat) (ws : List Word) (a : Nat) :
    Memory.get (Memory.image lo ws) a = if lo ≤ a then ws.getD (a - lo) 0#16 else 0#16 := by
  induction ws generalizing lo with
  | nil => simp [Memory.image]
  | cons w ws ih =>
    have hrest : Memory.get (Memory.image (lo + 1) ws) a = if lo + 1 ≤ a then ws.getD (a - (lo + 1)) 0#16 else 0#16 := ih _
    have hcons : lo + 1 ≤ a → (w :: ws).getD (a - lo) 0#16 = ws.getD (a - (lo + 1)) 0#16 := fun h => by
      rw [show a - lo = (a - (lo + 1)) + 1 by omega, List.getD_cons_succ]
    unfold Memory.image
    by_cases hw : w = 0#16
    · rw [if_pos hw, hrest]
      by_cases ha : a = lo
      · subst ha
        rw [if_neg (by omega), if_pos (le_refl _), Nat.sub_self, List.getD_cons_zero, hw]
      · by_cases hle : lo + 1 ≤ a
        · rw [if_pos hle, if_pos (by omega), hcons hle]
        · rw [if_neg hle, if_neg (by omega)]
    · rw [if_neg hw, Memory.get_cons, hrest]
      by_cases ha : lo = a
      · subst ha
        rw [if_pos rfl, if_pos (le_refl _), Nat.sub_self, List.getD_cons_zero]
      · rw [if_neg ha]
        by_cases hle : lo + 1 ≤ a
        · rw [if_pos hle, if_pos (by omega), hcons hle]
        · rw [if_neg hle, if_neg (by omega)]

/-! ### The canonical form -/

theorem Memory.wfFrom_mono {m : Memory} {lo hi : Nat} (h : Memory.wfFrom hi m = true) (hle : lo ≤ hi) :
    Memory.wfFrom lo m = true := by
  cases m with
  | nil => rfl
  | cons c m =>
    obtain ⟨k, w⟩ := c
    simp only [Memory.wfFrom, Bool.and_eq_true, decide_eq_true_eq] at h ⊢
    exact ⟨⟨⟨by omega, h.1.1.2⟩, h.1.2⟩, h.2⟩

/-- A write keeps the canonical form. -/
theorem Memory.wfFrom_put {m : Memory} {lo a : Nat} (h : Memory.wfFrom lo m = true) (hlo : lo ≤ a)
    (ha : a < Config.memWords) (v : Word) : Memory.wfFrom lo (Memory.put m a v) = true := by
  induction m generalizing lo with
  | nil =>
    unfold Memory.put
    by_cases hv : v = 0#16
    · simp [hv, Memory.wfFrom]
    · simp [hv, Memory.wfFrom, hlo, ha]
  | cons c m ih =>
    obtain ⟨k, w⟩ := c
    have hall := h
    simp only [Memory.wfFrom, Bool.and_eq_true, decide_eq_true_eq] at h
    unfold Memory.put
    by_cases hlt : a < k
    · rw [if_pos hlt]
      by_cases hv : v = 0#16
      · rw [if_pos hv]
        exact hall
      · rw [if_neg hv]
        simp only [Memory.wfFrom, Bool.and_eq_true, decide_eq_true_eq]
        exact ⟨⟨⟨hlo, ha⟩, hv⟩, ⟨⟨by omega, h.1.1.2⟩, h.1.2⟩, h.2⟩
    · rw [if_neg hlt]
      by_cases hk : a = k
      · rw [if_pos hk]
        subst hk
        by_cases hv : v = 0#16
        · rw [if_pos hv]
          exact Memory.wfFrom_mono h.2 (by omega)
        · rw [if_neg hv]
          simp only [Memory.wfFrom, Bool.and_eq_true, decide_eq_true_eq]
          exact ⟨⟨⟨hlo, ha⟩, hv⟩, h.2⟩
      · rw [if_neg hk]
        simp only [Memory.wfFrom, Bool.and_eq_true, decide_eq_true_eq]
        exact ⟨h.1, ih h.2 (by omega)⟩

theorem Memory.wf_put {m : Memory} {a : Nat} (h : m.wf = true) (ha : a < Config.memWords) (v : Word) :
    Memory.wf (Memory.put m a v) = true :=
  Memory.wfFrom_put h (Nat.zero_le _) ha v

/-- An image that fits is canonical. -/
theorem Memory.wfFrom_image (lo : Nat) (ws : List Word) (h : lo + ws.length ≤ Config.memWords) :
    Memory.wfFrom lo (Memory.image lo ws) = true := by
  induction ws generalizing lo with
  | nil => rfl
  | cons w ws ih =>
    simp only [List.length_cons] at h
    have hrest := ih (lo + 1) (by omega)
    unfold Memory.image
    by_cases hw : w = 0#16
    · rw [if_pos hw]
      exact Memory.wfFrom_mono hrest (by omega)
    · rw [if_neg hw]
      simp only [Memory.wfFrom, Bool.and_eq_true, decide_eq_true_eq]
      exact ⟨⟨⟨le_refl _, by omega⟩, hw⟩, hrest⟩

theorem Memory.wf_image (ws : List Word) (h : ws.length ≤ Config.memWords) :
    Memory.wf (Memory.image 0 ws) = true :=
  Memory.wfFrom_image 0 ws (by omega)

/-! ### MemRead and MemWrite -/

theorem word_lt (a : Word) : a.toNat < Config.memWords := a.isLt

/-- What `MemWrite` does, in full: one word of memory, and no other field. -/
theorem memWrite_eq (a v : Word) (s : State) : memWrite a v s = s.setMem (Memory.put s.mem a.toNat v) := rfl

/-- Reading after `MemWrite` in a state whose memory is canonical. -/
theorem memRead_memWrite {s : State} (h : s.mem.wf = true) (a v x : Word) :
    memRead x (memWrite a v s) = if x = a then v else memRead x s := by
  have hx : (x.toNat = a.toNat) ↔ x = a := BitVec.toNat_inj
  simp only [memRead, memWrite_eq, setMem_mem, Memory.get_put h, hx]

/-- `MemWrite` leaves every other word alone, in any state. -/
theorem memRead_memWrite_ne (s : State) {a x : Word} (h : x ≠ a) (v : Word) :
    memRead x (memWrite a v s) = memRead x s := by
  simp only [memRead, memWrite_eq, setMem_mem]
  exact Memory.get_put_ne _ (fun hc => h (BitVec.eq_of_toNat_eq hc)) v

theorem memWrite_wf {s : State} (h : s.mem.wf = true) (a v : Word) : (memWrite a v s).mem.wf = true :=
  Memory.wf_put h (word_lt a) v

/-- The canonical form of the words placed for one step (`withFetchWord` in Machine/Step.lean). -/
theorem memRead_setMem (s : State) (m : Memory) (x : Word) : memRead x (s.setMem m) = Memory.get m x.toNat := rfl

end Sys2Proof.Machine
end

