-- ==== Sys2Proof/Laws/Operands.lean ====
section
/-! SUPPORT. What the fetch, the resolver, the write-back and the push can do, each said once. -/

namespace Sys2Proof.Machine

/-- What SP becomes when an operand is resolved: only POP and PUSH move it (R123, R130). -/
def spAfter : Operand → Word → Word
  | .pop, v => v + 1#16
  | .push, v => v - 1#16
  | .reg _, v | .ind _, v | .idx _ _, v | .peek, v | .sp, v | .pc, v | .o, v | .mem _, v | .lit _, v | .short _, v => v

/-- What PC becomes when an operand is resolved: it moves past the next word, if any (R33, R98). -/
def pcAfter : Operand → Word → Word
  | .idx _ _, v | .mem _, v | .lit _, v => v + 1#16
  | .reg _, v | .ind _, v | .pop, v | .peek, v | .push, v | .sp, v | .pc, v | .o, v | .short _, v => v

/-- All a resolution changes: PC and SP. -/
theorem resolve_state (x : Operand) (s : State) :
    (resolve x s).2 = (s.setPc (pcAfter x s.pc)).setSp (spAfter x s.sp) := by
  cases x <;> rfl

/-- All a fetch changes: PC, the latched word and the status output. -/
theorem fetched_state (w : Word) (s : State) :
    fetched w s = ((s.setLatch { s.latch with opword := w }).setUnimpl false).setPc (s.pc + 1#16) := rfl

/-- The state after both resolutions of a base instruction. -/
theorem resolveBase_after (op : BitVec 4) (a b : Operand) (s : State) :
    (resolveBase op a b s).after =
      ((fetched (encBase op a.mode b.mode) s).setPc (pcAfter b (pcAfter a (s.pc + 1#16)))).setSp
        (spAfter b (spAfter a s.sp)) := by
  simp only [resolveBase, resolve_state]
  rfl

/-- The state after the resolution of an extended instruction's operand. -/
theorem resolveExt_after (e : BitVec 6) (b : Operand) (s : State) :
    (resolveExt e b s).2 =
      ((fetched (encExt e b.mode) s).setPc (pcAfter b (s.pc + 1#16))).setSp (spAfter b s.sp) := by
  simp only [resolveExt, resolve_state]
  rfl

/-- All a write-back can do: one of the four registers or one word of memory, or nothing. -/
theorem store_cases (l : Loc) (v : Word) (s : State) :
    (∃ r, l = .reg (.gp r) ∧ store l v s = s.setGp (s.gp.set r v)) ∨
    (l = .reg .sp ∧ store l v s = s.setSp v) ∨
    (l = .reg .pc ∧ store l v s = s.setPc v) ∨
    (l = .reg .o ∧ store l v s = s.setO v) ∨
    (∃ a, l = .mem a ∧ store l v s = s.setMem (Memory.put s.mem a.toNat v)) ∨
    (l = .none ∧ store l v s = s) := by
  cases l with
  | reg r =>
    cases r with
    | gp r => exact .inl ⟨r, rfl, rfl⟩
    | sp => exact .inr (.inl ⟨rfl, rfl⟩)
    | pc => exact .inr (.inr (.inl ⟨rfl, rfl⟩))
    | o => exact .inr (.inr (.inr (.inl ⟨rfl, rfl⟩)))
  | mem a => exact .inr (.inr (.inr (.inr (.inl ⟨a, rfl, rfl⟩))))
  | none => exact .inr (.inr (.inr (.inr (.inr ⟨rfl, rfl⟩))))

/-- All a push changes: SP and the word at the new SP. -/
theorem pushWord_state (v : Word) (s : State) :
    pushWord v s = (s.setSp (s.sp - 1#16)).setMem (Memory.put s.mem (s.sp - 1#16).toNat v) := rfl

/-- All the abnormal condition changes: the status output, and `faulted` under the fault policy. -/
theorem raiseUnimplemented_cases (w : Word) (s : State) :
    (s.policy = .nop ∧ raiseUnimplemented w s = s.setUnimpl true) ∨
    (s.policy = .fault ∧ raiseUnimplemented w s = (s.setUnimpl true).setFaulted (some w)) := by
  cases h : s.policy with
  | nop => exact .inl ⟨rfl, by simp [raiseUnimplemented, h]⟩
  | fault => exact .inr ⟨rfl, by simp [raiseUnimplemented, h]⟩

end Sys2Proof.Machine
end

