-- ==== Sys2Proof/Laws/Execute.lean ====
section
/-! SUPPORT. What one tick can do, said once for all instructions: every instruction is one of two shapes, and each shape
answers one next state. -/

namespace Sys2Proof.Machine

/-- The ALU of each base opcode, in the order of the opcode map (R100). -/
def aluOf (op : BitVec 4) : Word → Word → AluResult :=
  match op.toNat with
  | 0x1 => aluSet
  | 0x2 => aluAdd
  | 0x3 => aluSub
  | 0x4 => aluMul
  | 0x5 => aluDiv
  | 0x6 => aluMod
  | 0x7 => aluShl
  | 0x8 => aluShr
  | 0x9 => aluAnd
  | 0xA => aluBor
  | 0xB => aluXor
  | 0xC => aluIfe
  | 0xD => aluIfn
  | 0xE => aluIfg
  | _ => aluIfb

/-- The execute stage of each extended opcode. -/
def effectOf (e b : BitVec 6) : Word → State → State :=
  if e = 0x01#6 then fun target s => (pushWord s.pc s).setPc target
  else fun _ => raiseUnimplemented (encExt e b)

/-- Every instruction is a tick of one of the two formats. -/
theorem exec_eq (i : Instr) (s : State) :
    exec i s = match i.form with
      | .base op a b => runBase op (aluOf op) a b s
      | .ext e b => runExt e (effectOf e b.mode) b s := by
  cases i <;> rfl

/-- A base instruction's next state. -/
theorem exec_base {i : Instr} {op : BitVec 4} {a b : Operand} (h : i.form = .base op a b) (s : State) :
    exec i s = .next (unlessSkipped
      (commit (aluOf op (resolveBase op a b s).ra.value (resolveBase op a b s).rb.value) (resolveBase op a b s).ra.loc)
      (resolveBase op a b s).after) := by
  rw [exec_eq, h]
  rfl

/-- An extended instruction's next state. -/
theorem exec_ext {i : Instr} {e : BitVec 6} {b : Operand} (h : i.form = .ext e b) (s : State) :
    exec i s = .next (unlessSkipped (effectOf e b.mode (resolveExt e b s).1.value) (resolveExt e b s).2) := by
  rw [exec_eq, h]
  rfl

/-- The opcode number of a base instruction is not 0 (R100). -/
theorem form_base_ne_zero {i : Instr} {op : BitVec 4} {a b : Operand} (h : i.form = .base op a b) : op ≠ 0#4 := by
  cases i <;> cases h <;> decide

/-- Resolution leaves a pending skip for the tick to see. -/
@[simp] theorem resolveBase_skip (op : BitVec 4) (a b : Operand) (s : State) :
    (resolveBase op a b s).after.skip = s.skip := by
  rw [resolveBase_after]
  rfl

@[simp] theorem resolveExt_skip (e : BitVec 6) (b : Operand) (s : State) : (resolveExt e b s).2.skip = s.skip := by
  rw [resolveExt_after]
  rfl

theorem unlessSkipped_of_skip {s : State} (h : s.skip = true) (f : State → State) :
    unlessSkipped f s = s.setSkip false := by
  simp [unlessSkipped, h]

theorem unlessSkipped_of_not_skip {s : State} (h : s.skip = false) (f : State → State) : unlessSkipped f s = f s := by
  simp [unlessSkipped, h]

/-- The three shapes of an ALU result: a value; a value and an overflow word; a condition. -/
theorem aluOf_shape (op : BitVec 4) (a b : Word) (hop : op ≠ 0#4) :
    (writesResult op = true ∧ writesOverflow op = false ∧ isConditional op = false ∧
      ∃ v, aluOf op a b = .value v) ∨
    (writesResult op = true ∧ writesOverflow op = true ∧ isConditional op = false ∧
      ∃ v o, aluOf op a b = .withOverflow v o) ∨
    (writesResult op = false ∧ writesOverflow op = false ∧ isConditional op = true ∧
      ∃ c, aluOf op a b = .condition c) := by
  have hdiv : ∃ v o, aluDiv a b = .withOverflow v o := by
    unfold aluDiv
    split <;> exact ⟨_, _, rfl⟩
  have hcases : op = 1#4 ∨ op = 2#4 ∨ op = 3#4 ∨ op = 4#4 ∨ op = 5#4 ∨ op = 6#4 ∨ op = 7#4 ∨ op = 8#4 ∨ op = 9#4 ∨
      op = 10#4 ∨ op = 11#4 ∨ op = 12#4 ∨ op = 13#4 ∨ op = 14#4 ∨ op = 15#4 := by
    revert op
    decide
  rcases hcases with h | h | h | h | h | h | h | h | h | h | h | h | h | h | h <;> subst h
  case inr.inr.inr.inr.inl => exact .inr (.inl ⟨rfl, rfl, rfl, hdiv⟩)
  all_goals first
    | exact .inl ⟨rfl, rfl, rfl, _, rfl⟩
    | exact .inr (.inl ⟨rfl, rfl, rfl, _, _, rfl⟩)
    | exact .inr (.inr ⟨rfl, rfl, rfl, _, rfl⟩)

@[simp] theorem commit_value (v : Word) (l : Loc) (s : State) : commit (.value v) l s = store l v s := rfl

@[simp] theorem commit_withOverflow (v o : Word) (l : Loc) (s : State) :
    commit (.withOverflow v o) l s = (store l v s).setO o := rfl

theorem commit_condition (c : Bool) (l : Loc) (s : State) :
    commit (.condition c) l s = if c then s else s.setSkip true := by
  cases c <;> rfl

/-! ### The state the execute stage starts from -/

theorem pcAfter_eq (x : Operand) (v : Word) : pcAfter x v = v + BitVec.ofNat 16 x.words.length := by
  cases x <;> simp [pcAfter, Operand.words]

theorem spAfter_eq (x : Operand) (v : Word) : spAfter x v = v + stackShift x := by
  cases x <;> simp [spAfter, stackShift]
  exact BitVec.sub_eq_add_neg v 1#16

/-- Every field of the state after both resolutions but PC: they are those before the tick, SP moved by POP and PUSH. -/
theorem resolveBase_fields (op : BitVec 4) (a b : Operand) (s : State) :
    let t := (resolveBase op a b s).after
    t.gp = s.gp ∧ t.sp = s.sp + stackShift a + stackShift b ∧ t.o = s.o ∧ t.mem = s.mem ∧ t.faulted = s.faulted ∧
      t.unimpl = false ∧ t.latch.opword = encBase op a.mode b.mode ∧ SameSurroundings s t := by
  simp only [resolveBase_after, spAfter_eq]
  exact ⟨rfl, rfl, rfl, rfl, rfl, rfl, rfl, rfl, rfl, rfl, rfl, rfl, rfl⟩

theorem resolveExt_fields (e : BitVec 6) (b : Operand) (s : State) :
    let t := (resolveExt e b s).2
    t.gp = s.gp ∧ t.sp = s.sp + stackShift b ∧ t.o = s.o ∧ t.mem = s.mem ∧ t.faulted = s.faulted ∧
      t.unimpl = false ∧ t.latch.opword = encExt e b.mode ∧ SameSurroundings s t := by
  simp only [resolveExt_after, spAfter_eq]
  exact ⟨rfl, rfl, rfl, rfl, rfl, rfl, rfl, rfl, rfl, rfl, rfl, rfl, rfl⟩

/-- Before the execute stage PC is past the whole instruction (R33, R98). -/
theorem resolveBase_pc {i : Instr} {op : BitVec 4} {a b : Operand} (h : i.form = .base op a b) (s : State) :
    (resolveBase op a b s).after.pc = s.pc + instrLength i := by
  rw [resolveBase_after]
  simp only [setSp_pc, setPc_pc, pcAfter_eq, instrLength, encode, h, Form.words, List.length_cons, List.length_append]
  apply BitVec.eq_of_toNat_eq
  simp
  omega

theorem resolveExt_pc {i : Instr} {e : BitVec 6} {b : Operand} (h : i.form = .ext e b) (s : State) :
    (resolveExt e b s).2.pc = s.pc + instrLength i := by
  rw [resolveExt_after]
  simp only [setSp_pc, setPc_pc, pcAfter_eq, instrLength, encode, h, Form.words, List.length_cons]
  apply BitVec.eq_of_toNat_eq
  simp
  omega

/-! ### What the Engine's turn and the host can answer -/

/-- All an enabled tick, a disabled one or a faulted Engine can answer (R278). -/
theorem engineTurn_cases (s : State) :
    (∃ w, s.faulted = some w ∧ engineTurn s = .fault (.unimplemented w)) ∨
    (s.faulted = none ∧ s.run = .paused ∧ engineTurn s = .next s) ∨
    (s.tickEnabled ∧ engineTurn s = exec (fetchInstr s) s) := by
  unfold engineTurn State.tickEnabled
  cases hf : s.faulted with
  | some w => exact .inl ⟨w, rfl, rfl⟩
  | none =>
    cases hr : s.run with
    | paused => exact .inr (.inl ⟨rfl, rfl, rfl⟩)
    | running => exact .inr (.inr ⟨⟨rfl, rfl⟩, rfl⟩)

/-- All a call of LoadImage can answer (R67). -/
theorem hostLoadImage_cases (ws : List Word) (n : Nat) (s : State) :
    (s.run = .running ∧ hostLoadImage ws n s = .refused .imageWhileRunning) ∨
    (s.run = .paused ∧ Config.memWords < n ∧ hostLoadImage ws n s = .refused .imageTooLong) ∨
    (s.run = .paused ∧ n ≤ Config.memWords ∧ n ≠ ws.length ∧
      hostLoadImage ws n s = .refused .imageLengthMismatch) ∨
    (s.run = .paused ∧ n ≤ Config.memWords ∧ n = ws.length ∧
      hostLoadImage ws n s = .next (s.setMem (Memory.image 0 ws))) := by
  unfold hostLoadImage
  cases hr : s.run with
  | running => exact .inl ⟨rfl, by simp⟩
  | paused =>
    by_cases hlong : n > Config.memWords
    · exact .inr (.inl ⟨rfl, hlong, by simp [hlong]⟩)
    · by_cases hlen : n = ws.length
      · exact .inr (.inr (.inr ⟨rfl, by omega, hlen, by simp [hlen ▸ hlong, hlen]⟩))
      · exact .inr (.inr (.inl ⟨rfl, by omega, hlen, by simp [hlong, hlen]⟩))

end Sys2Proof.Machine
end

