-- ==== Sys2Proof/Laws/PerInstr.lean ====
section
/-! SUPPORT. Per instruction: the words of an encoded instruction are as many as its instruction word says
(30_encoding.md R98). -/

namespace Sys2Proof.Laws.EncodedLength

/-- The number of words of a well-formed instruction follows from its instruction word alone (R98). -/
def Statement (i : Instr) : Prop := i.wf = true → (encode i).length = lengthOf i.form.word

theorem set (a b : Operand) : Statement (.set a b) := fun h =>
  base_length (by decide) (by simp only [Instr.wf, Bool.and_eq_true] at h; exact h.1) (by simp only [Instr.wf, Bool.and_eq_true] at h; exact h.2)

theorem add (a b : Operand) : Statement (.add a b) := fun h =>
  base_length (by decide) (by simp only [Instr.wf, Bool.and_eq_true] at h; exact h.1) (by simp only [Instr.wf, Bool.and_eq_true] at h; exact h.2)

theorem sub (a b : Operand) : Statement (.sub a b) := fun h =>
  base_length (by decide) (by simp only [Instr.wf, Bool.and_eq_true] at h; exact h.1) (by simp only [Instr.wf, Bool.and_eq_true] at h; exact h.2)

theorem mul (a b : Operand) : Statement (.mul a b) := fun h =>
  base_length (by decide) (by simp only [Instr.wf, Bool.and_eq_true] at h; exact h.1) (by simp only [Instr.wf, Bool.and_eq_true] at h; exact h.2)

theorem div (a b : Operand) : Statement (.div a b) := fun h =>
  base_length (by decide) (by simp only [Instr.wf, Bool.and_eq_true] at h; exact h.1) (by simp only [Instr.wf, Bool.and_eq_true] at h; exact h.2)

theorem mod (a b : Operand) : Statement (.mod a b) := fun h =>
  base_length (by decide) (by simp only [Instr.wf, Bool.and_eq_true] at h; exact h.1) (by simp only [Instr.wf, Bool.and_eq_true] at h; exact h.2)

theorem shl (a b : Operand) : Statement (.shl a b) := fun h =>
  base_length (by decide) (by simp only [Instr.wf, Bool.and_eq_true] at h; exact h.1) (by simp only [Instr.wf, Bool.and_eq_true] at h; exact h.2)

theorem shr (a b : Operand) : Statement (.shr a b) := fun h =>
  base_length (by decide) (by simp only [Instr.wf, Bool.and_eq_true] at h; exact h.1) (by simp only [Instr.wf, Bool.and_eq_true] at h; exact h.2)

theorem and (a b : Operand) : Statement (.and a b) := fun h =>
  base_length (by decide) (by simp only [Instr.wf, Bool.and_eq_true] at h; exact h.1) (by simp only [Instr.wf, Bool.and_eq_true] at h; exact h.2)

theorem bor (a b : Operand) : Statement (.bor a b) := fun h =>
  base_length (by decide) (by simp only [Instr.wf, Bool.and_eq_true] at h; exact h.1) (by simp only [Instr.wf, Bool.and_eq_true] at h; exact h.2)

theorem xor (a b : Operand) : Statement (.xor a b) := fun h =>
  base_length (by decide) (by simp only [Instr.wf, Bool.and_eq_true] at h; exact h.1) (by simp only [Instr.wf, Bool.and_eq_true] at h; exact h.2)

theorem ife (a b : Operand) : Statement (.ife a b) := fun h =>
  base_length (by decide) (by simp only [Instr.wf, Bool.and_eq_true] at h; exact h.1) (by simp only [Instr.wf, Bool.and_eq_true] at h; exact h.2)

theorem ifn (a b : Operand) : Statement (.ifn a b) := fun h =>
  base_length (by decide) (by simp only [Instr.wf, Bool.and_eq_true] at h; exact h.1) (by simp only [Instr.wf, Bool.and_eq_true] at h; exact h.2)

theorem ifg (a b : Operand) : Statement (.ifg a b) := fun h =>
  base_length (by decide) (by simp only [Instr.wf, Bool.and_eq_true] at h; exact h.1) (by simp only [Instr.wf, Bool.and_eq_true] at h; exact h.2)

theorem ifb (a b : Operand) : Statement (.ifb a b) := fun h =>
  base_length (by decide) (by simp only [Instr.wf, Bool.and_eq_true] at h; exact h.1) (by simp only [Instr.wf, Bool.and_eq_true] at h; exact h.2)

theorem jsr (b : Operand) : Statement (.jsr b) := fun h => ext_length h

theorem extUnimpl00 (b : Operand) : Statement (.extUnimpl00 b) := fun h => ext_length h

theorem extUnimpl02 (b : Operand) : Statement (.extUnimpl02 b) := fun h => ext_length h

theorem extUnimpl03 (b : Operand) : Statement (.extUnimpl03 b) := fun h => ext_length h

theorem extUnimpl04 (b : Operand) : Statement (.extUnimpl04 b) := fun h => ext_length h

theorem extUnimpl05 (b : Operand) : Statement (.extUnimpl05 b) := fun h => ext_length h

theorem extUnimpl06 (b : Operand) : Statement (.extUnimpl06 b) := fun h => ext_length h

theorem extUnimpl07 (b : Operand) : Statement (.extUnimpl07 b) := fun h => ext_length h

theorem extUnimpl08 (b : Operand) : Statement (.extUnimpl08 b) := fun h => ext_length h

theorem extUnimpl09 (b : Operand) : Statement (.extUnimpl09 b) := fun h => ext_length h

theorem extUnimpl0A (b : Operand) : Statement (.extUnimpl0A b) := fun h => ext_length h

theorem extUnimpl0B (b : Operand) : Statement (.extUnimpl0B b) := fun h => ext_length h

theorem extUnimpl0C (b : Operand) : Statement (.extUnimpl0C b) := fun h => ext_length h

theorem extUnimpl0D (b : Operand) : Statement (.extUnimpl0D b) := fun h => ext_length h

theorem extUnimpl0E (b : Operand) : Statement (.extUnimpl0E b) := fun h => ext_length h

theorem extUnimpl0F (b : Operand) : Statement (.extUnimpl0F b) := fun h => ext_length h

theorem extUnimpl10 (b : Operand) : Statement (.extUnimpl10 b) := fun h => ext_length h

theorem extUnimpl11 (b : Operand) : Statement (.extUnimpl11 b) := fun h => ext_length h

theorem extUnimpl12 (b : Operand) : Statement (.extUnimpl12 b) := fun h => ext_length h

theorem extUnimpl13 (b : Operand) : Statement (.extUnimpl13 b) := fun h => ext_length h

theorem extUnimpl14 (b : Operand) : Statement (.extUnimpl14 b) := fun h => ext_length h

theorem extUnimpl15 (b : Operand) : Statement (.extUnimpl15 b) := fun h => ext_length h

theorem extUnimpl16 (b : Operand) : Statement (.extUnimpl16 b) := fun h => ext_length h

theorem extUnimpl17 (b : Operand) : Statement (.extUnimpl17 b) := fun h => ext_length h

theorem extUnimpl18 (b : Operand) : Statement (.extUnimpl18 b) := fun h => ext_length h

theorem extUnimpl19 (b : Operand) : Statement (.extUnimpl19 b) := fun h => ext_length h

theorem extUnimpl1A (b : Operand) : Statement (.extUnimpl1A b) := fun h => ext_length h

theorem extUnimpl1B (b : Operand) : Statement (.extUnimpl1B b) := fun h => ext_length h

theorem extUnimpl1C (b : Operand) : Statement (.extUnimpl1C b) := fun h => ext_length h

theorem extUnimpl1D (b : Operand) : Statement (.extUnimpl1D b) := fun h => ext_length h

theorem extUnimpl1E (b : Operand) : Statement (.extUnimpl1E b) := fun h => ext_length h

theorem extUnimpl1F (b : Operand) : Statement (.extUnimpl1F b) := fun h => ext_length h

theorem extUnimpl20 (b : Operand) : Statement (.extUnimpl20 b) := fun h => ext_length h

theorem extUnimpl21 (b : Operand) : Statement (.extUnimpl21 b) := fun h => ext_length h

theorem extUnimpl22 (b : Operand) : Statement (.extUnimpl22 b) := fun h => ext_length h

theorem extUnimpl23 (b : Operand) : Statement (.extUnimpl23 b) := fun h => ext_length h

theorem extUnimpl24 (b : Operand) : Statement (.extUnimpl24 b) := fun h => ext_length h

theorem extUnimpl25 (b : Operand) : Statement (.extUnimpl25 b) := fun h => ext_length h

theorem extUnimpl26 (b : Operand) : Statement (.extUnimpl26 b) := fun h => ext_length h

theorem extUnimpl27 (b : Operand) : Statement (.extUnimpl27 b) := fun h => ext_length h

theorem extUnimpl28 (b : Operand) : Statement (.extUnimpl28 b) := fun h => ext_length h

theorem extUnimpl29 (b : Operand) : Statement (.extUnimpl29 b) := fun h => ext_length h

theorem extUnimpl2A (b : Operand) : Statement (.extUnimpl2A b) := fun h => ext_length h

theorem extUnimpl2B (b : Operand) : Statement (.extUnimpl2B b) := fun h => ext_length h

theorem extUnimpl2C (b : Operand) : Statement (.extUnimpl2C b) := fun h => ext_length h

theorem extUnimpl2D (b : Operand) : Statement (.extUnimpl2D b) := fun h => ext_length h

theorem extUnimpl2E (b : Operand) : Statement (.extUnimpl2E b) := fun h => ext_length h

theorem extUnimpl2F (b : Operand) : Statement (.extUnimpl2F b) := fun h => ext_length h

theorem extUnimpl30 (b : Operand) : Statement (.extUnimpl30 b) := fun h => ext_length h

theorem extUnimpl31 (b : Operand) : Statement (.extUnimpl31 b) := fun h => ext_length h

theorem extUnimpl32 (b : Operand) : Statement (.extUnimpl32 b) := fun h => ext_length h

theorem extUnimpl33 (b : Operand) : Statement (.extUnimpl33 b) := fun h => ext_length h

theorem extUnimpl34 (b : Operand) : Statement (.extUnimpl34 b) := fun h => ext_length h

theorem extUnimpl35 (b : Operand) : Statement (.extUnimpl35 b) := fun h => ext_length h

theorem extUnimpl36 (b : Operand) : Statement (.extUnimpl36 b) := fun h => ext_length h

theorem extUnimpl37 (b : Operand) : Statement (.extUnimpl37 b) := fun h => ext_length h

theorem extUnimpl38 (b : Operand) : Statement (.extUnimpl38 b) := fun h => ext_length h

theorem extUnimpl39 (b : Operand) : Statement (.extUnimpl39 b) := fun h => ext_length h

theorem extUnimpl3A (b : Operand) : Statement (.extUnimpl3A b) := fun h => ext_length h

theorem extUnimpl3B (b : Operand) : Statement (.extUnimpl3B b) := fun h => ext_length h

theorem extUnimpl3C (b : Operand) : Statement (.extUnimpl3C b) := fun h => ext_length h

theorem extUnimpl3D (b : Operand) : Statement (.extUnimpl3D b) := fun h => ext_length h

theorem extUnimpl3E (b : Operand) : Statement (.extUnimpl3E b) := fun h => ext_length h

theorem extUnimpl3F (b : Operand) : Statement (.extUnimpl3F b) := fun h => ext_length h

end Sys2Proof.Laws.EncodedLength
end

