-- ==== Sys2Proof/Laws/Screen.lean ====
section
/-! SUPPORT. What a call of `ReadScreen` can return, each said once. -/

namespace Sys2Proof.Machine

@[simp] theorem length_readScreen (s : State) : (readScreen s).length = Config.screenWords := by simp [readScreen]

theorem getElem?_readScreen (s : State) {k : Nat} (h : k < Config.screenWords) :
    (readScreen s)[k]? = some (screenWord k s) := by simp [readScreen, h]

/-- A word of the window is the word of memory at its address. -/
theorem screenWord_eq_memRead {k : Nat} (h : k < Config.screenWords) (s : State) :
    screenWord k s = memRead (BitVec.ofNat 16 (Config.screenBase + k)) s := by
  have : Config.screenBase + k < 2 ^ 16 := by unfold Config.screenWords at h; unfold Config.screenBase; omega
  rw [screenWord, memRead, BitVec.toNat_ofNat, Nat.mod_eq_of_lt this]

/-- The frame of one state is the only one all of whose words are that state's. -/
theorem eq_readScreen {frame : List Word} {s : State} (hl : frame.length = Config.screenWords)
    (h : ∀ k < Config.screenWords, frame[k]? = some (screenWord k s)) : frame = readScreen s := by
  refine List.ext_getElem? fun k => ?_
  by_cases hk : k < Config.screenWords
  · rw [h k hk, getElem?_readScreen s hk]
  · rw [List.getElem?_eq_none (by omega), List.getElem?_eq_none (by rw [length_readScreen]; omega)]

/-- The frame of each state of a run is admitted. -/
theorem readScreen_admitted {during : List State} (hr : IsRun during) {s : State} (hs : s ∈ during) :
    FrameAdmitted during (readScreen s) := by
  obtain ⟨before, after, rfl⟩ := List.append_of_mem hs
  exact ⟨hr, length_readScreen s, before, [s], after, by simp, List.isChain_singleton s,
    fun k hk => ⟨s, List.mem_singleton.mpr rfl, getElem?_readScreen s hk⟩⟩

/-- While nothing moves, exactly the frame of the one state is admitted. -/
theorem frameAdmitted_singleton (s : State) (frame : List Word) : FrameAdmitted [s] frame ↔ frame = readScreen s := by
  refine ⟨fun ⟨_, hl, before, reads, after, hd, _, hw⟩ => eq_readScreen hl fun k hk => ?_, ?_⟩
  · obtain ⟨u, hu, he⟩ := hw k hk
    have : u ∈ [s] := by rw [hd]; simp [hu]
    rwa [List.mem_singleton.mp this] at he
  · intro h
    rw [h]
    exact readScreen_admitted (List.isChain_singleton s) (List.mem_singleton.mpr rfl)

/-- Every word of an admitted frame is one its address held during the call (R73). -/
theorem FrameAdmitted.word {during : List State} {frame : List Word} (h : FrameAdmitted during frame) {k : Nat}
    (hk : k < Config.screenWords) : ∃ s ∈ during, frame[k]? = some (screenWord k s) := by
  obtain ⟨_, _, before, reads, after, rfl, _, hw⟩ := h
  obtain ⟨s, hs, he⟩ := hw k hk
  exact ⟨s, by simp [hs], he⟩

/-- An image load is not the Engine's turn. -/
theorem not_imageLoadDue_of_engineDue {s : State} (h : s.engineDue) : ¬ s.imageLoadDue := by
  rintro ⟨words, length, ms, hm⟩
  rcases h with h | ⟨_, h⟩ <;> rw [hm] at h <;> cases h

end Sys2Proof.Machine
end

