-- ==== Sys2Proof/Tests/Slice0.lean ====
section
/-! SUPPORT. Tests of the model. Expected values come from the spec's own tables and vectors (95_test_vectors.md; ids in
the comments), and every witness meets the hypotheses of the obligation it is named after. -/

namespace Sys2Proof.Tests

open Sys2Proof Sys2Proof.Machine

/-! ### Helpers -/

/-- Part of the next state, where there is one. -/
def look {α : Type} (o : Host.Outcome State Fault Refusal) (f : State → α) : Option α :=
  match o with
  | .next t => some (f t)
  | .fault _ | .refused _ => none

/-- The reset state, Running, with `words` from address 0 on. -/
def prog (words : List Word) : State := (State.reset.setRun .running).setMem (Memory.image 0 words)

/-- One word at address 0, A and B set, and O = 0x5555: the start of the vectors of 2.2. -/
def ab (w a b : Word) : State := ((prog [w]).setGp { Gp.reset with a := a, b := b }).setO 0x5555#16

/-- A and O after one step of `op A, B`. -/
def aluStep (w a b : Word) : Option (Word × Word) := look (step (ab w a b)) fun t => (t.gp.a, t.o)

/-- `skip`, PC and O after one step of an IF on A and B. -/
def ifStep (w a b : Word) : Option (Bool × Word × Word) := look (step (ab w a b)) fun t => (t.skip, t.pc, t.o)

/-! ### Well-formedness refuses -/

theorem wf_refuses_long_short_literal_a : (Instr.add (.short 32#16) (.reg .a)).wf = false := by decide
theorem wf_refuses_long_short_literal_b : (Instr.set (.reg .a) (.short 32#16)).wf = false := by decide
theorem wf_refuses_long_short_literal_lone : (Instr.jsr (.short 0xFFFF#16)).wf = false := by decide
theorem wf_refuses_long_short_literal_unimpl : (Instr.extUnimpl3F (.short 32#16)).wf = false := by decide
theorem wf_accepts_short_literal_31 : (Instr.ifb (.short 31#16) (.short 31#16)).wf = true := by decide

/-! ### Decoding by words written out

The base words are `bbbbbb aaaaaa oooo` with b = 0x01 (B) and a = 0x00 (A), so 0x0400 + o (R91, R100). -/

theorem decodes_set : decodeAt 0x0401#16 0#16 0#16 = .set (.reg .a) (.reg .b) := by decide
theorem decodes_add : decodeAt 0x0402#16 0#16 0#16 = .add (.reg .a) (.reg .b) := by decide
theorem decodes_sub : decodeAt 0x0403#16 0#16 0#16 = .sub (.reg .a) (.reg .b) := by decide
theorem decodes_mul : decodeAt 0x0404#16 0#16 0#16 = .mul (.reg .a) (.reg .b) := by decide
theorem decodes_div : decodeAt 0x0405#16 0#16 0#16 = .div (.reg .a) (.reg .b) := by decide
theorem decodes_mod : decodeAt 0x0406#16 0#16 0#16 = .mod (.reg .a) (.reg .b) := by decide
theorem decodes_shl : decodeAt 0x0407#16 0#16 0#16 = .shl (.reg .a) (.reg .b) := by decide
theorem decodes_shr : decodeAt 0x0408#16 0#16 0#16 = .shr (.reg .a) (.reg .b) := by decide
theorem decodes_and : decodeAt 0x0409#16 0#16 0#16 = .and (.reg .a) (.reg .b) := by decide
theorem decodes_bor : decodeAt 0x040A#16 0#16 0#16 = .bor (.reg .a) (.reg .b) := by decide
theorem decodes_xor : decodeAt 0x040B#16 0#16 0#16 = .xor (.reg .a) (.reg .b) := by decide
theorem decodes_ife : decodeAt 0x040C#16 0#16 0#16 = .ife (.reg .a) (.reg .b) := by decide
theorem decodes_ifn : decodeAt 0x040D#16 0#16 0#16 = .ifn (.reg .a) (.reg .b) := by decide
theorem decodes_ifg : decodeAt 0x040E#16 0#16 0#16 = .ifg (.reg .a) (.reg .b) := by decide
theorem decodes_ifb : decodeAt 0x040F#16 0#16 0#16 = .ifb (.reg .a) (.reg .b) := by decide

/-! The extended words are `bbbbbb eeeeee 0000` with b = 0x01 (B), so 0x0400 + 16 e (R92, R101). -/

theorem decodes_jsr : decodeAt 0x0410#16 0#16 0#16 = .jsr (.reg .b) := by decide
theorem decodes_ext_00 :
    decodeAt 0x0400#16 0#16 0#16 = .extUnimpl00 (.reg .b) ∧
    decodeAt 0x0420#16 0#16 0#16 = .extUnimpl02 (.reg .b) ∧
    decodeAt 0x0430#16 0#16 0#16 = .extUnimpl03 (.reg .b) ∧
    decodeAt 0x0440#16 0#16 0#16 = .extUnimpl04 (.reg .b) ∧
    decodeAt 0x0450#16 0#16 0#16 = .extUnimpl05 (.reg .b) ∧
    decodeAt 0x0460#16 0#16 0#16 = .extUnimpl06 (.reg .b) ∧
    decodeAt 0x0470#16 0#16 0#16 = .extUnimpl07 (.reg .b) ∧
    decodeAt 0x0480#16 0#16 0#16 = .extUnimpl08 (.reg .b) ∧
    decodeAt 0x0490#16 0#16 0#16 = .extUnimpl09 (.reg .b) ∧
    decodeAt 0x04A0#16 0#16 0#16 = .extUnimpl0A (.reg .b) ∧
    decodeAt 0x04B0#16 0#16 0#16 = .extUnimpl0B (.reg .b) ∧
    decodeAt 0x04C0#16 0#16 0#16 = .extUnimpl0C (.reg .b) ∧
    decodeAt 0x04D0#16 0#16 0#16 = .extUnimpl0D (.reg .b) ∧
    decodeAt 0x04E0#16 0#16 0#16 = .extUnimpl0E (.reg .b) ∧
    decodeAt 0x04F0#16 0#16 0#16 = .extUnimpl0F (.reg .b) := by decide
theorem decodes_ext_10 :
    decodeAt 0x0500#16 0#16 0#16 = .extUnimpl10 (.reg .b) ∧
    decodeAt 0x0510#16 0#16 0#16 = .extUnimpl11 (.reg .b) ∧
    decodeAt 0x0520#16 0#16 0#16 = .extUnimpl12 (.reg .b) ∧
    decodeAt 0x0530#16 0#16 0#16 = .extUnimpl13 (.reg .b) ∧
    decodeAt 0x0540#16 0#16 0#16 = .extUnimpl14 (.reg .b) ∧
    decodeAt 0x0550#16 0#16 0#16 = .extUnimpl15 (.reg .b) ∧
    decodeAt 0x0560#16 0#16 0#16 = .extUnimpl16 (.reg .b) ∧
    decodeAt 0x0570#16 0#16 0#16 = .extUnimpl17 (.reg .b) ∧
    decodeAt 0x0580#16 0#16 0#16 = .extUnimpl18 (.reg .b) ∧
    decodeAt 0x0590#16 0#16 0#16 = .extUnimpl19 (.reg .b) ∧
    decodeAt 0x05A0#16 0#16 0#16 = .extUnimpl1A (.reg .b) ∧
    decodeAt 0x05B0#16 0#16 0#16 = .extUnimpl1B (.reg .b) ∧
    decodeAt 0x05C0#16 0#16 0#16 = .extUnimpl1C (.reg .b) ∧
    decodeAt 0x05D0#16 0#16 0#16 = .extUnimpl1D (.reg .b) ∧
    decodeAt 0x05E0#16 0#16 0#16 = .extUnimpl1E (.reg .b) ∧
    decodeAt 0x05F0#16 0#16 0#16 = .extUnimpl1F (.reg .b) := by decide
theorem decodes_ext_20 :
    decodeAt 0x0600#16 0#16 0#16 = .extUnimpl20 (.reg .b) ∧
    decodeAt 0x0610#16 0#16 0#16 = .extUnimpl21 (.reg .b) ∧
    decodeAt 0x0620#16 0#16 0#16 = .extUnimpl22 (.reg .b) ∧
    decodeAt 0x0630#16 0#16 0#16 = .extUnimpl23 (.reg .b) ∧
    decodeAt 0x0640#16 0#16 0#16 = .extUnimpl24 (.reg .b) ∧
    decodeAt 0x0650#16 0#16 0#16 = .extUnimpl25 (.reg .b) ∧
    decodeAt 0x0660#16 0#16 0#16 = .extUnimpl26 (.reg .b) ∧
    decodeAt 0x0670#16 0#16 0#16 = .extUnimpl27 (.reg .b) ∧
    decodeAt 0x0680#16 0#16 0#16 = .extUnimpl28 (.reg .b) ∧
    decodeAt 0x0690#16 0#16 0#16 = .extUnimpl29 (.reg .b) ∧
    decodeAt 0x06A0#16 0#16 0#16 = .extUnimpl2A (.reg .b) ∧
    decodeAt 0x06B0#16 0#16 0#16 = .extUnimpl2B (.reg .b) ∧
    decodeAt 0x06C0#16 0#16 0#16 = .extUnimpl2C (.reg .b) ∧
    decodeAt 0x06D0#16 0#16 0#16 = .extUnimpl2D (.reg .b) ∧
    decodeAt 0x06E0#16 0#16 0#16 = .extUnimpl2E (.reg .b) ∧
    decodeAt 0x06F0#16 0#16 0#16 = .extUnimpl2F (.reg .b) := by decide
theorem decodes_ext_30 :
    decodeAt 0x0700#16 0#16 0#16 = .extUnimpl30 (.reg .b) ∧
    decodeAt 0x0710#16 0#16 0#16 = .extUnimpl31 (.reg .b) ∧
    decodeAt 0x0720#16 0#16 0#16 = .extUnimpl32 (.reg .b) ∧
    decodeAt 0x0730#16 0#16 0#16 = .extUnimpl33 (.reg .b) ∧
    decodeAt 0x0740#16 0#16 0#16 = .extUnimpl34 (.reg .b) ∧
    decodeAt 0x0750#16 0#16 0#16 = .extUnimpl35 (.reg .b) ∧
    decodeAt 0x0760#16 0#16 0#16 = .extUnimpl36 (.reg .b) ∧
    decodeAt 0x0770#16 0#16 0#16 = .extUnimpl37 (.reg .b) ∧
    decodeAt 0x0780#16 0#16 0#16 = .extUnimpl38 (.reg .b) ∧
    decodeAt 0x0790#16 0#16 0#16 = .extUnimpl39 (.reg .b) ∧
    decodeAt 0x07A0#16 0#16 0#16 = .extUnimpl3A (.reg .b) ∧
    decodeAt 0x07B0#16 0#16 0#16 = .extUnimpl3B (.reg .b) ∧
    decodeAt 0x07C0#16 0#16 0#16 = .extUnimpl3C (.reg .b) ∧
    decodeAt 0x07D0#16 0#16 0#16 = .extUnimpl3D (.reg .b) ∧
    decodeAt 0x07E0#16 0#16 0#16 = .extUnimpl3E (.reg .b) ∧
    decodeAt 0x07F0#16 0#16 0#16 = .extUnimpl3F (.reg .b) := by decide

/-! The mode table (R95), each form in either position, with words written out. -/

/-- Modes 0x00 to 0x07 in bits 9:4, by index (R31). -/
theorem decodes_registers :
    decodeAt 0x0401#16 0#16 0#16 = .set (.reg .a) (.reg .b) ∧
    decodeAt 0x0411#16 0#16 0#16 = .set (.reg .b) (.reg .b) ∧
    decodeAt 0x0421#16 0#16 0#16 = .set (.reg .c) (.reg .b) ∧
    decodeAt 0x0431#16 0#16 0#16 = .set (.reg .x) (.reg .b) ∧
    decodeAt 0x0441#16 0#16 0#16 = .set (.reg .y) (.reg .b) ∧
    decodeAt 0x0451#16 0#16 0#16 = .set (.reg .z) (.reg .b) ∧
    decodeAt 0x0461#16 0#16 0#16 = .set (.reg .i) (.reg .b) ∧
    decodeAt 0x0471#16 0#16 0#16 = .set (.reg .j) (.reg .b) := by decide

/-- Modes 0x08 to 0x0F in bits 9:4. -/
theorem decodes_indirect :
    decodeAt 0x0481#16 0#16 0#16 = .set (.ind .a) (.reg .b) ∧
    decodeAt 0x0491#16 0#16 0#16 = .set (.ind .b) (.reg .b) ∧
    decodeAt 0x04A1#16 0#16 0#16 = .set (.ind .c) (.reg .b) ∧
    decodeAt 0x04B1#16 0#16 0#16 = .set (.ind .x) (.reg .b) ∧
    decodeAt 0x04C1#16 0#16 0#16 = .set (.ind .y) (.reg .b) ∧
    decodeAt 0x04D1#16 0#16 0#16 = .set (.ind .z) (.reg .b) ∧
    decodeAt 0x04E1#16 0#16 0#16 = .set (.ind .i) (.reg .b) ∧
    decodeAt 0x04F1#16 0#16 0#16 = .set (.ind .j) (.reg .b) := by decide

/-- Modes 0x10 to 0x17 in bits 9:4. -/
theorem decodes_indexed :
    decodeAt 0x0501#16 0x1234#16 0#16 = .set (.idx .a 0x1234#16) (.reg .b) ∧
    decodeAt 0x0511#16 0x1234#16 0#16 = .set (.idx .b 0x1234#16) (.reg .b) ∧
    decodeAt 0x0521#16 0x1234#16 0#16 = .set (.idx .c 0x1234#16) (.reg .b) ∧
    decodeAt 0x0531#16 0x1234#16 0#16 = .set (.idx .x 0x1234#16) (.reg .b) ∧
    decodeAt 0x0541#16 0x1234#16 0#16 = .set (.idx .y 0x1234#16) (.reg .b) ∧
    decodeAt 0x0551#16 0x1234#16 0#16 = .set (.idx .z 0x1234#16) (.reg .b) ∧
    decodeAt 0x0561#16 0x1234#16 0#16 = .set (.idx .i 0x1234#16) (.reg .b) ∧
    decodeAt 0x0571#16 0x1234#16 0#16 = .set (.idx .j 0x1234#16) (.reg .b) := by decide

/-- Modes 0x18 to 0x20 and 0x3F in bits 9:4. -/
theorem decodes_other_modes_a :
    decodeAt 0x0581#16 0x1234#16 0#16 = .set .pop (.reg .b) ∧
    decodeAt 0x0591#16 0x1234#16 0#16 = .set .peek (.reg .b) ∧
    decodeAt 0x05A1#16 0x1234#16 0#16 = .set .push (.reg .b) ∧
    decodeAt 0x05B1#16 0x1234#16 0#16 = .set .sp (.reg .b) ∧
    decodeAt 0x05C1#16 0x1234#16 0#16 = .set .pc (.reg .b) ∧
    decodeAt 0x05D1#16 0x1234#16 0#16 = .set .o (.reg .b) ∧
    decodeAt 0x05E1#16 0x1234#16 0#16 = .set (.mem 0x1234#16) (.reg .b) ∧
    decodeAt 0x05F1#16 0x1234#16 0#16 = .set (.lit 0x1234#16) (.reg .b) ∧
    decodeAt 0x0601#16 0x1234#16 0#16 = .set (.short 0#16) (.reg .b) ∧
    decodeAt 0x07F1#16 0x1234#16 0#16 = .set (.short 31#16) (.reg .b) := by decide

/-- Modes in bits 15:10. -/
theorem decodes_modes_b :
    decodeAt 0x1C11#16 0x1234#16 0#16 = .set (.reg .b) (.reg .j) ∧
    decodeAt 0x3C11#16 0x1234#16 0#16 = .set (.reg .b) (.ind .j) ∧
    decodeAt 0x5C11#16 0x1234#16 0#16 = .set (.reg .b) (.idx .j 0x1234#16) ∧
    decodeAt 0x6011#16 0x1234#16 0#16 = .set (.reg .b) .pop ∧
    decodeAt 0x6411#16 0x1234#16 0#16 = .set (.reg .b) .peek ∧
    decodeAt 0x6811#16 0x1234#16 0#16 = .set (.reg .b) .push ∧
    decodeAt 0x6C11#16 0x1234#16 0#16 = .set (.reg .b) .sp ∧
    decodeAt 0x7011#16 0x1234#16 0#16 = .set (.reg .b) .pc ∧
    decodeAt 0x7411#16 0x1234#16 0#16 = .set (.reg .b) .o ∧
    decodeAt 0x7811#16 0x1234#16 0#16 = .set (.reg .b) (.mem 0x1234#16) ∧
    decodeAt 0x7C11#16 0x1234#16 0#16 = .set (.reg .b) (.lit 0x1234#16) ∧
    decodeAt 0x8011#16 0x1234#16 0#16 = .set (.reg .b) (.short 0#16) ∧
    decodeAt 0xFC11#16 0x1234#16 0#16 = .set (.reg .b) (.short 31#16) := by decide

/-- E2, E9: operand A's next word comes first (R99). -/
theorem decodes_two_next_words :
    decodeAt 0x7DE1#16 0x1000#16 0x0020#16 = .set (.mem 0x1000#16) (.lit 0x0020#16) ∧
    decodeAt 0x7DF1#16 0x2000#16 0x0009#16 = .set (.lit 0x2000#16) (.lit 0x0009#16) := by decide

/-- E4, E11, E8, E2, E7: lengths (R98). -/
theorem lengths :
    lengthOf 0x0000#16 = 1 ∧ lengthOf 0x41F0#16 = 2 ∧ lengthOf 0xFFFF#16 = 1 ∧ lengthOf 0x7DE1#16 = 3 ∧
    lengthOf 0x7C10#16 = 2 ∧ lengthOf 0x61C1#16 = 1 ∧ lengthOf 0x9D21#16 = 2 := by decide

theorem decode_leaves_the_rest :
    decode [0x7C01#16, 0x0030#16, 0xBEEF#16] = .ok (.set (.reg .a) (.lit 0x0030#16), [0xBEEF#16]) := by rfl
theorem decode_refuses_nothing_to_decode : decode [] = .error .noInstructionWord := by rfl
theorem decode_refuses_a_missing_next_word : decode [0x7DE1#16, 0x1000#16] = .error .missingNextWord := by rfl
theorem encode_two_next_words :
    encode (.set (.mem 0x1000#16) (.lit 0x0020#16)) = [0x7DE1#16, 0x1000#16, 0x0020#16] := by decide
theorem encode_extended : encode (.extUnimpl1F (.idx .a 0x1234#16)) = [0x41F0#16, 0x1234#16] := by decide

/-- R105's own examples, and a row of the opcode table. -/
theorem spellings :
    (decodeAt 0x7DE1#16 0x1000#16 0x0020#16).spelling = "SET [0x1000], 0x0020" ∧
    (decodeAt 0x6031#16 0#16 0#16).spelling = "SET X, POP" ∧ (decodeAt 0x9410#16 0#16 0#16).spelling = "JSR 0x0005" ∧
    (decodeAt 0x5961#16 0x0200#16 0x0100#16).spelling = "SET [0x0200 + I], [0x0100 + I]" ∧
    (decodeAt 0x01F0#16 0#16 0#16).spelling = "EXT_UNIMPL_0x1F A" := by decide
/-- D20 and E14. -/
theorem literals : literal 31#16 = .short 31#16 ∧ literal 32#16 = .lit 32#16 ∧
    encode (.set (.reg .a) (literal 5#16)) = [0x9401#16] := by decide

theorem table_word_of_one_word : decodeTableWord 16 0x0010 = some (.jsr (.reg .a)) := by decide
theorem table_word_with_zero_next_word : decodeTableWord 16 0x7C10 = some (.jsr (.lit 0#16)) := by decide
theorem table_word_of_three_words :
    decodeTableWord 48 0x002010007DE1 = some (.set (.mem 0x1000#16) (.lit 0x0020#16)) := by decide
theorem fetch_word_runs_first :
    look (step (State.reset.withFetchWord 32 0x12347C01)) (fun t => (t.gp.a, t.pc)) = some (0x1234#16, 2#16) := by decide
theorem fetch_word_from_a_stopped_state :
    look (step ((State.reset.setFaulted (some 0x0020#16)).setSkip true |>.withFetchWord 16 0x9401)) (fun t => (t.gp.a, t.pc)) =
      some (5#16, 1#16) := by decide

/-! ### One step of each instruction (2.2, 2.4, 2.5) -/

/-- S1. -/
theorem test_set : aluStep 0x0401#16 0x1234#16 0xBEEF#16 = some (0xBEEF#16, 0x5555#16) := by decide
/-- A3. -/
theorem test_add_carries : aluStep 0x0402#16 0xFFFF#16 0x0001#16 = some (0x0000#16, 0x0001#16) := by decide
/-- A6. -/
theorem test_add_no_carry : aluStep 0x0402#16 0x7FFF#16 0x0001#16 = some (0x8000#16, 0x0000#16) := by decide
/-- A10. -/
theorem test_sub_borrows : aluStep 0x0403#16 0x8000#16 0xFFFF#16 = some (0x8001#16, 0xFFFF#16) := by decide
/-- A7. -/
theorem test_sub_no_borrow : aluStep 0x0403#16 0x0005#16 0x0003#16 = some (0x0002#16, 0x0000#16) := by decide
/-- A14. -/
theorem test_mul_high_word : aluStep 0x0404#16 0xFFFF#16 0xFFFF#16 = some (0x0001#16, 0xFFFE#16) := by decide
/-- A24. -/
theorem test_div_fraction : aluStep 0x0405#16 0x8000#16 0x0003#16 = some (0x2AAA#16, 0xAAAA#16) := by decide
/-- A18. -/
theorem test_div_by_zero : aluStep 0x0405#16 0x0007#16 0x0000#16 = some (0x0000#16, 0x0000#16) := by decide
/-- A28. -/
theorem test_mod : aluStep 0x0406#16 0x0003#16 0x0007#16 = some (0x0003#16, 0x5555#16) := by decide
/-- A26. -/
theorem test_mod_by_zero : aluStep 0x0406#16 0x0007#16 0x0000#16 = some (0x0000#16, 0x5555#16) := by decide
/-- R180: `0xFFFF << 20`. -/
theorem test_shl_20 : aluStep 0x0407#16 0xFFFF#16 0x0014#16 = some (0x0000#16, 0xFFF0#16) := by decide
/-- R180: `x << 32`. -/
theorem test_shl_32 : aluStep 0x0407#16 0xFFFF#16 0x0020#16 = some (0x0000#16, 0x0000#16) := by decide
/-- R181: `0x8000 >> 17`. -/
theorem test_shr_17 : aluStep 0x0408#16 0x8000#16 0x0011#16 = some (0x0000#16, 0x4000#16) := by decide
/-- R181: `0x1234 >> 4`. -/
theorem test_shr_4 : aluStep 0x0408#16 0x1234#16 0x0004#16 = some (0x0123#16, 0x4000#16) := by decide
/-- R182. -/
theorem test_and : aluStep 0x0409#16 0x1234#16 0x000F#16 = some (0x0004#16, 0x5555#16) := by decide
/-- R183. -/
theorem test_bor : aluStep 0x040A#16 0x0001#16 0x0010#16 = some (0x0011#16, 0x5555#16) := by decide
/-- R184. -/
theorem test_xor : aluStep 0x040B#16 0x00F0#16 0x00FF#16 = some (0x000F#16, 0x5555#16) := by decide
/-- C1. -/
theorem test_ife_equal : ifStep 0x040C#16 0x0005#16 0x0005#16 = some (false, 1#16, 0x5555#16) := by decide
/-- C2. -/
theorem test_ife_unequal : ifStep 0x040C#16 0x0005#16 0x0006#16 = some (true, 1#16, 0x5555#16) := by decide
/-- C3. -/
theorem test_ifn_equal : ifStep 0x040D#16 0x0005#16 0x0005#16 = some (true, 1#16, 0x5555#16) := by decide
/-- C4. -/
theorem test_ifn_unequal : ifStep 0x040D#16 0x0005#16 0x0006#16 = some (false, 1#16, 0x5555#16) := by decide
/-- C5. -/
theorem test_ifg_unsigned : ifStep 0x040E#16 0x8000#16 0x7FFF#16 = some (false, 1#16, 0x5555#16) := by decide
/-- C6b. -/
theorem test_ifg_equal : ifStep 0x040E#16 0x0005#16 0x0005#16 = some (true, 1#16, 0x5555#16) := by decide
/-- C7. -/
theorem test_ifb_no_common_bit : ifStep 0x040F#16 0x0006#16 0x0001#16 = some (true, 1#16, 0x5555#16) := by decide
/-- C8. -/
theorem test_ifb_common_bit : ifStep 0x040F#16 0x0007#16 0x0001#16 = some (false, 1#16, 0x5555#16) := by decide
/-- J1. -/
theorem test_jsr : look (step (prog [0x7C10#16, 0x0100#16])) (fun t => (t.sp, memRead 0xFFFF#16 t, t.pc)) =
    some (0xFFFF#16, 2#16, 0x0100#16) := by decide
/-- J2: the pop, then the push into the slot just popped. -/
theorem test_jsr_pop :
    look (step (memWrite 0xFFFF#16 0x30#16 ((prog [0x6010#16]).setSp 0xFFFF#16))) (fun t => (t.sp, memRead 0xFFFF#16 t, t.pc)) =
      some (0xFFFF#16, 1#16, 0x0030#16) := by decide
/-- U2 and R141. -/
theorem test_unimplemented_consumes_its_next_word :
    look (step (prog [0x7C20#16, 0x1234#16])) (fun t => (t.pc, t.unimpl, t.faulted)) = some (2#16, true, none) := by decide
/-- U3. -/
theorem test_zero_word : look (step (prog [])) (fun t => (t.pc, t.unimpl)) = some (1#16, true) := by decide
/-- U5. -/
theorem test_unimplemented_faults_under_its_policy :
    look (step { prog [0x0020#16] with policy := .fault }) (fun t => (t.pc, t.unimpl, t.faulted)) =
      some (1#16, true, some 0x0020#16) := by decide
/-- U5: no further tick. -/
theorem test_no_tick_after_a_fault : step ((prog []).setFaulted (some 0x0020#16)) = .fault (.unimplemented 0x0020#16) := by rfl
/-- U6: skipped, so no pulse and no fault. -/
theorem test_skipped_unimplemented :
    look (step { prog [0x0020#16] with policy := .fault, skip := true }) (fun t => (t.pc, t.unimpl, t.faulted, t.skip)) =
      some (1#16, false, none, false) := by decide

/-! ### Operand modes (2.3) -/

/-- M2: the indexed address wraps. -/
theorem test_indexed_wraps :
    look (step ((prog [0x9D21#16, 0x0010#16]).setGp { Gp.reset with c := 0xFFF8#16 })) (fun t => (memRead 0x0008#16 t, t.pc)) =
      some (7#16, 2#16) := by decide
/-- M5: PUSH from SP = 0. -/
theorem test_push_wraps :
    look (step (prog [0x7DA1#16, 0x0055#16])) (fun t => (t.sp, memRead 0xFFFF#16 t)) = some (0xFFFF#16, 0x55#16) := by decide
/-- M8: A reads PC before B's word. -/
theorem test_add_pc : look (step (prog [0x7DC2#16, 0x0003#16])) (fun t => (t.pc, t.o)) = some (4#16, 0#16) := by decide
/-- M9: mode 0x1F writes at its next word's value. -/
theorem test_long_literal_destination :
    look (step (prog [0x9DF1#16, 0x1000#16])) (fun t => (memRead 0x1000#16 t, memRead 1#16 t)) = some (7#16, 0x1000#16) := by
  decide
/-- M10: the result is discarded, O is written. -/
theorem test_short_literal_destination :
    look (step (prog [0x7E52#16, 0xFFFF#16])) (fun t => (t.gp, t.o, t.pc)) = some (Gp.reset, 1#16, 2#16) := by decide
/-- M11: the location is fixed before B pops. -/
theorem test_set_pop_pop :
    look (step (((prog [0x6181#16]).setSp 0xFFFE#16).setMem [(0, 0x6181#16), (0xFFFE, 1#16), (0xFFFF, 2#16)]))
      (fun t => (memRead 0xFFFE#16 t, t.sp)) = some (2#16, 0#16) := by decide
/-- M12: A's value is captured before B pops. -/
theorem test_add_sp_pop :
    look (step (((prog [0x61B2#16]).setSp 0xFFFE#16).setMem [(0, 0x61B2#16), (0xFFFE, 5#16)])) (fun t => (t.sp, t.o)) =
      some (3#16, 1#16) := by decide
/-- M13: write-back first, then O. -/
theorem test_add_o : look (step ((prog [0x85D2#16]).setO 0xFFFF#16)) (fun t => t.o) = some 1#16 := by decide
/-- M21: PC wraps inside an instruction. -/
theorem test_fetch_wraps :
    look (step (((prog []).setPc 0xFFFF#16).setMem [(0, 0x1234#16), (0xFFFF, 0x7C01#16)])) (fun t => (t.gp.a, t.pc)) =
      some (0x1234#16, 1#16) := by decide
/-- M14: a skipped POP still moves SP. -/
theorem test_skipped_pop :
    look (step (((prog [0x6011#16]).setSp 0xFFFF#16).setSkip true)) (fun t => (t.sp, t.gp.b, t.skip)) =
      some (0#16, 0#16, false) := by decide

/-! ### Ports (2.6, 2.7) -/

/-- MEM1. -/
theorem test_load_image :
    look (step ((State.reset.setMem [(5, 0xFFFF#16)]).setMoves [.loadImage [0x1111#16, 0x2222#16] 2])) (fun t => t.mem) =
      some [(0, 0x1111#16), (1, 0x2222#16)] := by decide
/-- MEM5 and R279. -/
theorem test_image_too_long : step (State.reset.setMoves [.loadImage [] 65537]) = .refused .imageTooLong := by rfl
theorem test_image_while_running : step ((prog []).setMoves [.loadImage [] 0]) = .refused .imageWhileRunning := by rfl
theorem test_image_length_mismatch : step (State.reset.setMoves [.loadImage [] 1]) = .refused .imageLengthMismatch := by rfl
/-- RC1: no tick while Paused. -/
theorem test_paused : step State.reset = .next State.reset := by rfl
/-- RC5 and RC6. -/
theorem test_toggle :
    look (step (State.reset.setMoves [.togglePause])) (fun t => t.run) = some .running ∧
    look (step ((prog []).setMoves [.togglePause])) (fun t => t.run) = some .paused := by decide
/-- R68: an odd file. -/
theorem test_pack : packImage [0x7C#8, 0x01#8, 0x30#8] = [0x7C01#16, 0x3000#16] := by decide
/-- MEM3: the two ends of the window. -/
theorem test_screen_ends :
    let s := State.reset.setMem [(0xE000, 0x41#16), (0xE1F7, 0x42#16), (0xE1F8, 0x43#16)]
    screenWord 0 s = 0x41#16 ∧ screenWord 503 s = 0x42#16 ∧ memRead 0xE1F7#16 s = 0x42#16 := by decide

/-! ### Witnesses: states and operands that meet the hypotheses of each obligation, clause by clause -/

theorem witness_DecodeOfEncodeIsTheInstruction :
    (Instr.set (.idx .j 0xFFFF#16) (.short 31#16)).wf = true ∧ (Instr.extUnimpl3F (.lit 0#16)).wf = true := by decide

theorem witness_EveryWordDecodesByItsFields :
    (0x0001#16 : Word).toNat % 16 ≠ 0 ∧ (0xFFFF#16 : Word).toNat % 16 ≠ 0 ∧
    (0x0000#16 : Word).toNat % 16 = 0 ∧ (0xFFF0#16 : Word).toNat % 16 = 0 := by decide

theorem witness_OpcodeMapByMatchAndMask :
    ([Instr.set, .add, .sub, .mul, .div, .mod, .shl, .shr, .and, .bor, .xor, .ife, .ifn, .ifg, .ifb][0]? = some .set ∧
      0xFFF1#16 &&& 0x000F#16 = BitVec.ofNat 16 (0 + 1)) ∧
    ([Instr.set, .add, .sub, .mul, .div, .mod, .shl, .shr, .and, .bor, .xor, .ife, .ifn, .ifg, .ifb][14]? = some .ifb ∧
      0x000F#16 &&& 0x000F#16 = BitVec.ofNat 16 (14 + 1)) ∧
    0xFC10#16 &&& 0x03FF#16 = 0x0010#16 ∧
    (0xFFF0#16 &&& 0x000F#16 = 0#16 ∧ 0xFFF0#16 &&& 0x03FF#16 ≠ 0x0010#16) ∧
    (0x0000#16 &&& 0x000F#16 = 0#16 ∧ 0x0000#16 &&& 0x03FF#16 ≠ 0x0010#16) :=
  ⟨⟨rfl, rfl⟩, ⟨rfl, rfl⟩, rfl, ⟨rfl, by decide⟩, rfl, by decide⟩

theorem witness_StepRunsTheDecodedInstruction :
    let s := prog [0x9401#16]
    s.tickEnabled ∧
      decode [memRead s.pc s, memRead (s.pc + 1#16) s, memRead (s.pc + 2#16) s] =
        .ok (.set (.reg .a) (.short 5#16), [0#16, 0#16]) ∧
      s.moves = [] ∧ (s.setMoves [.tick, .stop]).moves = .tick :: [.stop] :=
  ⟨⟨rfl, rfl⟩, rfl, rfl, rfl⟩

theorem witness_InstructionWordsAreTheWordsAtPc :
    let s := prog [0x9401#16]
    s.tickEnabled ∧ s.engineDue ∧ ∃ t, step s = .next t := ⟨⟨rfl, rfl⟩, .inl rfl, _, rfl⟩

theorem witness_RegisterIndirectAndIndexedModes :
    let s := (prog [0xFFFF#16]).setGp { Gp.reset with j := 2#16 }
    [GpReg.a, .b, .c, .x, .y, .z, .i, .j][0]? = some .a ∧ [GpReg.a, .b, .c, .x, .y, .z, .i, .j][7]? = some .j ∧
      0xFFFF#16 = memRead s.pc s := by decide

theorem witness_NextWordModes :
    let s := prog [0x9DF1#16, 0x1000#16]
    s.mem.wf = true ∧ s.skip = false ∧ ∃ t, exec (.set (.lit 0x1000#16) (.short 7#16)) s = .next t :=
  ⟨rfl, rfl, _, rfl⟩

theorem witness_SpecialRegisterAndShortLiteralModes : (0 : Nat) < 32 ∧ (31 : Nat) < 32 := by decide

/-- Canonical memory, no skip, and a next state for each clause, at boundary values. -/
theorem witness_OperandAResolvedBeforeOperandB :
    let s := prog []
    s.mem.wf = true ∧ s.skip = false ∧ (∃ t, exec (.set .push .sp) s = .next t) ∧
      (∃ t, exec (.set .pop .pop) s = .next t) ∧ (∃ t, exec (.set .peek .pop) s = .next t) ∧
      (∃ t, exec (.set .sp .pop) s = .next t) ∧ (∃ t, exec (.add .sp .pop) s = .next t) ∧
      (∃ t, exec (.add .pc (.lit 0xFFFF#16)) s = .next t) ∧ (∃ t, exec (.set (.mem 0xFFFF#16) .pc) s = .next t) ∧
      (∃ t, exec (.add (.reg .j) (.reg .j)) s = .next t) ∧ (∃ t, exec (.jsr (.lit 0xFFFF#16)) s = .next t) ∧
      (∃ t, exec (.jsr .pop) s = .next t) ∧ ∃ t, exec (.jsr (.reg .j)) s = .next t :=
  ⟨rfl, rfl, ⟨_, rfl⟩, ⟨_, rfl⟩, ⟨_, rfl⟩, ⟨_, rfl⟩, ⟨_, rfl⟩, ⟨_, rfl⟩, ⟨_, rfl⟩, ⟨_, rfl⟩, ⟨_, rfl⟩, ⟨_, rfl⟩, _, rfl⟩

theorem witness_AddResultAndCarry : (prog []).skip = false := rfl

theorem witness_SubResultAndBorrow : (prog []).skip = false := rfl

theorem witness_MulResultAndHighWord : (prog []).skip = false := rfl

theorem witness_ShlResultAndOverflow : (prog []).skip = false := rfl

theorem witness_ShrResultAndOverflow : (prog []).skip = false := rfl

theorem witness_SetAndBitwiseResults : (prog []).skip = false := rfl

theorem witness_DivResultAndFraction :
    let s := prog []
    s.skip = false ∧ (resolveBase 0x5#4 (.reg .a) (.short 0#16) s).rb.value = 0#16 ∧
      (resolveBase 0x5#4 (.reg .a) (.short 1#16) s).rb.value ≠ 0#16 := by decide

theorem witness_ModResult :
    let s := prog []
    s.skip = false ∧ (resolveBase 0x6#4 (.reg .a) (.short 0#16) s).rb.value = 0#16 ∧
      (resolveBase 0x6#4 (.reg .a) (.short 1#16) s).rb.value ≠ 0#16 := by decide

theorem witness_ConditionalsSetSkipOnFailure :
    (Instr.ifb .pop (.short 0#16)).form = .base 0xF#4 .pop (.short 0#16) ∧ isConditional 0xC#4 = true ∧
      isConditional 0xF#4 = true ∧ ((prog []).setSkip true).skip = true ∧ (prog []).skip = false :=
  ⟨rfl, rfl, rfl, rfl, rfl⟩

theorem witness_JsrPushesReturnAddressAndJumps :
    (prog []).skip = false ∧ ((prog []).setSkip true).skip = true := ⟨rfl, rfl⟩

/-- Executed under either policy, and skipped. -/
theorem witness_UnimplementedExtendedOpcodesFollowThePolicy :
    (Instr.extUnimpl00 .pop).form = .ext 0x00#6 .pop ∧ (0x00#6 : BitVec 6) ≠ 0x01#6 ∧ (prog []).skip = false ∧
      (prog []).policy = .nop ∧ ({ prog [] with policy := .fault } : State).policy = .fault ∧
      ((prog []).setSkip true).skip = true := ⟨rfl, by decide, rfl, rfl, rfl, rfl⟩

theorem witness_SumDifferenceProductAreExact :
    let s := prog []
    s.mem.wf = true ∧ s.skip = false ∧
    (∃ t v, exec (.add (.reg .a) (.short 1#16)) s = .next t ∧
      (resolveBase 0x2#4 (.reg .a) (.short 1#16) s).ra.loc ≠ .reg .o ∧
      readLoc t (resolveBase 0x2#4 (.reg .a) (.short 1#16) s).ra.loc = some v) ∧
    (∃ t v, exec (.sub (.ind .b) (.short 1#16)) s = .next t ∧
      (resolveBase 0x3#4 (.ind .b) (.short 1#16) s).ra.loc ≠ .reg .o ∧
      readLoc t (resolveBase 0x3#4 (.ind .b) (.short 1#16) s).ra.loc = some v) ∧
    (∃ t v, exec (.mul .pc .pc) s = .next t ∧
      (resolveBase 0x4#4 .pc .pc s).ra.loc ≠ .reg .o ∧
      readLoc t (resolveBase 0x4#4 .pc .pc s).ra.loc = some v) :=
  ⟨rfl, rfl, ⟨_, _, rfl, by decide, rfl⟩, ⟨_, _, rfl, by decide, rfl⟩, _, _, rfl, by decide, rfl⟩

theorem witness_QuotientsAndRemaindersAreExact :
    let s := prog []
    s.mem.wf = true ∧ s.skip = false ∧
    (∃ t v, exec (.div .pc (.short 2#16)) s = .next t ∧ (resolveBase 0x5#4 .pc (.short 2#16) s).ra.loc ≠ .reg .o ∧
      readLoc t (resolveBase 0x5#4 .pc (.short 2#16) s).ra.loc = some v ∧
      (resolveBase 0x5#4 .pc (.short 2#16) s).rb.value ≠ 0#16) ∧
    (∃ t v, exec (.shr .pc (.short 31#16)) s = .next t ∧ (resolveBase 0x8#4 .pc (.short 31#16) s).ra.loc ≠ .reg .o ∧
      readLoc t (resolveBase 0x8#4 .pc (.short 31#16) s).ra.loc = some v) ∧
    (∃ t v, exec (.mod .o (.short 1#16)) s = .next t ∧
      readLoc t (resolveBase 0x6#4 .o (.short 1#16) s).ra.loc = some v ∧
      (resolveBase 0x6#4 .o (.short 1#16) s).rb.value ≠ 0#16) :=
  ⟨rfl, rfl, ⟨_, _, rfl, by decide, rfl, by decide⟩, ⟨_, _, rfl, by decide, rfl⟩, _, _, rfl, rfl, by decide⟩

/-- One witness for each kind of location: register, SP, O, PC, memory and none. -/
theorem witness_WriteBackFrame :
    let s := prog []
    let loc := fun a => (resolveBase 0x1#4 a (.short 1#16) s).ra.loc
    s.skip = false ∧ writesResult 0x1#4 = true ∧ writesResult 0xB#4 = true ∧ writesOverflow 0x1#4 = false ∧
      (∀ a, (Instr.set a (.short 1#16)).form = .base 0x1#4 a (.short 1#16) ∧
        ∃ t, exec (.set a (.short 1#16)) s = .next t) ∧
      loc (.reg .j) = .reg (.gp .j) ∧ loc .sp = .reg .sp ∧ loc .o = .reg .o ∧ loc .pc = .reg .pc ∧
      loc .push = .mem 0xFFFF#16 ∧ loc (.short 0#16) = .none :=
  ⟨rfl, rfl, rfl, rfl, fun _ => ⟨rfl, _, rfl⟩, rfl, rfl, rfl, rfl, rfl, rfl⟩

theorem witness_ConditionalFrame :
    (Instr.ife .pop .push).form = .base 0xC#4 .pop .push ∧ isConditional 0xC#4 = true ∧ (prog []).skip = false ∧
      ∃ t, exec (.ife .pop .push) (prog []) = .next t := ⟨rfl, rfl, rfl, _, rfl⟩

theorem witness_JsrFrame : (prog []).skip = false ∧ ∃ t, exec (.jsr .pop) (prog []) = .next t := ⟨rfl, _, rfl⟩

theorem witness_UnimplementedExtendedFrame :
    (Instr.extUnimpl3F .pop).form = .ext 0x3F#6 .pop ∧ 0x3F#6 ≠ 0x01#6 ∧ (prog []).skip = false ∧
      (prog []).policy = .nop ∧ ∃ t, exec (.extUnimpl3F .pop) (prog []) = .next t :=
  ⟨rfl, by decide, rfl, rfl, _, rfl⟩

theorem witness_SkippedTickOnlyPassesTheInstruction : ((prog []).setSkip true).skip = true := rfl

theorem witness_PcEndsAtTheSamePlaceSkippedOrNot :
    formWritesPc (Instr.set (.mem 0x2000#16) (.lit 0x5678#16)).form = false ∧
      (∃ t, exec (.set (.mem 0x2000#16) (.lit 0x5678#16)) ((prog []).setSkip false) = .next t) ∧
      ∃ u, exec (.set (.mem 0x2000#16) (.lit 0x5678#16)) ((prog []).setSkip true) = .next u :=
  ⟨rfl, ⟨_, rfl⟩, _, rfl⟩

/-- A running state and a faulted one, both within the invariant. -/
theorem witness_EveryStepKeepsTheInvariant :
    (let s := prog [0x7DE1#16, 0x1000#16, 0x0020#16]
     s.Inv ∧ ∃ t, step s = .next t) ∧
    (let s : State := { prog [0x0020#16] with policy := .fault, unimpl := true, faulted := some 0x0020#16, moves := [.stop] }
     s.Inv ∧ ∃ t, step s = .next t) :=
  ⟨⟨⟨by decide, by decide, fun _ => rfl, fun _ h => (Option.some_ne_none _ h.symm).elim, fun h => (h rfl).elim⟩, _, rfl⟩,
   ⟨by decide, by decide, fun h => UnimplExtPolicy.noConfusion h, fun _ h => by cases h; decide, fun _ => rfl⟩, _, rfl⟩

theorem witness_NopRunsNeverStop :
    let s := (prog []).setMoves [.stop, .start, .tick]
    s.Inv ∧ s.policy = .nop ∧ ∀ ws k, Move.loadImage ws k ∉ s.moves :=
  ⟨⟨by decide, by decide, fun _ => rfl, fun _ h => (Option.some_ne_none _ h.symm).elim, fun h => (h rfl).elim⟩, rfl,
   fun _ _ h => by simp [State.setMoves] at h⟩

theorem witness_OnlyTheFaultedEngineFaults :
    let s := (prog []).setFaulted (some 0x0020#16)
    step s = .fault (.unimplemented 0x0020#16) ∧ s.faulted = some 0x0020#16 ∧ s.engineDue ∧
      (s.setMoves [.tick]).engineDue := ⟨rfl, rfl, .inl rfl, .inr ⟨_, rfl⟩⟩

/-- One call for each reason; 65536 is not too long. -/
theorem witness_OnlyBrokenImageLoadsAreRefused :
    step ((prog []).setMoves [.loadImage [] 65537]) = .refused .imageWhileRunning ∧
    step (State.reset.setMoves [.loadImage [] 65537]) = .refused .imageTooLong ∧
    step (State.reset.setMoves [.loadImage [] 65536]) = .refused .imageLengthMismatch ∧
    step (State.reset.setMoves [.loadImage [1#16] 0]) = .refused .imageLengthMismatch := ⟨rfl, rfl, rfl, rfl⟩

theorem witness_FaultedIsTerminal :
    let s := ((prog []).setFaulted (some 0x0020#16)).setMoves [.start]
    s.faulted = some 0x0020#16 ∧ ∃ t, step s = .next t := ⟨rfl, _, rfl⟩

theorem witness_OnlyWriteBackChangesGeneralRegisters :
    ∃ t, step (prog [0x9401#16]) = .next t ∧ t.gp.get .a ≠ (prog [0x9401#16]).gp.get .a := ⟨_, rfl, by decide⟩

theorem witness_OnlyTicksMovePc : ∃ t, step (prog []) = .next t ∧ t.pc ≠ (prog []).pc := ⟨_, rfl, by decide⟩

/-- By an opcode's overflow word (`SUB A, 1`), and by a result (`SET O, 5`). -/
theorem witness_OnlyOverflowOpcodesOrItsModeChangeO :
    (∃ t, step (prog [0x8403#16]) = .next t ∧ t.o ≠ (prog [0x8403#16]).o) ∧
    ∃ t, step (prog [0x95D1#16]) = .next t ∧ t.o ≠ (prog [0x95D1#16]).o := ⟨⟨_, rfl, by decide⟩, _, rfl, by decide⟩

theorem witness_OIsReadOnlyThroughItsMode :
    (∀ op a b, (Instr.add (.reg .a) .pop).form = .base op a b → a ≠ .o ∧ b ≠ .o) ∧
      (∀ e b, (Instr.add (.reg .a) .pop).form = .ext e b → b ≠ .o) ∧
      ∃ t, exec (.add (.reg .a) .pop) (prog []) = .next t :=
  ⟨fun _ _ _ h => by cases h; exact ⟨Operand.noConfusion, Operand.noConfusion⟩, fun _ _ h => (by cases h), _, rfl⟩

/-- By a store, by JSR's push and by an image load. -/
theorem witness_OnlyOneStoreOrAnImageLoadChangesMemory :
    (∃ t, step (prog [0x9DF1#16, 0x1000#16]) = .next t ∧
      memRead 0x1000#16 t ≠ memRead 0x1000#16 (prog [0x9DF1#16, 0x1000#16])) ∧
    (∃ t, step (prog [0x9410#16]) = .next t ∧ memRead 0xFFFF#16 t ≠ memRead 0xFFFF#16 (prog [0x9410#16])) ∧
    ∃ t, step (State.reset.setMoves [.loadImage [1#16] 1]) = .next t ∧
      memRead 0#16 t ≠ memRead 0#16 (State.reset.setMoves [.loadImage [1#16] 1]) :=
  ⟨⟨_, rfl, by decide⟩, ⟨_, rfl, by decide⟩, _, rfl, by decide⟩

/-- A tick after which `skip` is set, and one after which it is not. -/
theorem witness_SkipIsSetExactlyByAFailedCondition :
    look (exec (.ife (.reg .a) (.short 1#16)) (prog [])) (fun t => t.skip) = some true ∧
    look (exec (.ife (.reg .a) (.short 1#16)) ((prog []).setSkip true)) (fun t => t.skip) = some false := by decide

/-- A tick that pulses, and one that does not. -/
theorem witness_UnimplPulsesExactlyOnExecution :
    look (exec (.extUnimpl02 (.reg .a)) (prog [])) (fun t => t.unimpl) = some true ∧
    look (exec (.jsr (.reg .a)) (prog [])) (fun t => t.unimpl) = some false := by decide

theorem witness_LatchAndStatusOutputAreNeverRead : ∃ t, exec (.set .pc .pop) (prog []) = .next t := ⟨_, rfl⟩

theorem witness_ControlPortOperations :
    (State.reset.setMoves [.start, .tick]).moves = .start :: [.tick] ∧
    (State.reset.setMoves [.stop]).moves = .stop :: [] ∧
    (State.reset.setMoves [.togglePause]).moves = .togglePause :: [] := ⟨rfl, rfl, rfl⟩

theorem witness_HostMovesLeaveTheEngineAlone :
    let s := (prog []).setMoves [.togglePause]
    Move.togglePause ≠ .tick ∧ s.moves = .togglePause :: [] ∧ ∃ t, step s = .next t :=
  ⟨Move.noConfusion, rfl, _, rfl⟩

/-- A passing turn, an image load and a waking Start; and an instruction. -/
theorem witness_PausedKeepsAllStateUntilWoken :
    State.reset.run = .paused ∧ (∃ t, step State.reset = .next t) ∧
    (∃ t, step (State.reset.setMoves [.loadImage [1#16] 1]) = .next t) ∧
    (∃ t, step (State.reset.setMoves [.start]) = .next t ∧ t.run = .running) ∧
    ∃ t, exec (.jsr .pop) State.reset = .next t :=
  ⟨rfl, ⟨_, rfl⟩, ⟨_, rfl⟩, ⟨_, rfl, rfl⟩, _, rfl⟩

theorem witness_LoadImageReplacesMemoryOnly :
    let s := State.reset.setMoves [.loadImage [1#16, 0#16, 2#16] 3]
    s.moves = .loadImage [1#16, 0#16, 2#16] ([1#16, 0#16, 2#16] : List Word).length :: [] ∧ s.run = .paused ∧
      ([1#16, 0#16, 2#16] : List Word).length ≤ 65536 := by decide

/-- The shortest image, and the longest. -/
theorem witness_BootRunsTheImageFromAddressZero :
    ([] : List Word).length ≤ 65536 ∧ (List.replicate 65536 (1#16 : Word)).length ≤ 65536 :=
  ⟨Nat.zero_le _, by rw [List.length_replicate]⟩

theorem witness_MemWriteStoresOneWordOnly :
    (prog [1#16, 2#16]).mem.wf = true ∧ (0xE000#16 : Word) ≠ 0xE1F7#16 := by decide

theorem witness_CanonicalMemoriesAreEqualData :
    let m : Memory := [(0, 1#16), (65535, 2#16)]
    m.wf = true ∧ ∀ x : Word, m.get x.toNat = m.get x.toNat := ⟨by decide, fun _ => rfl⟩

theorem witness_ImageFilePacking :
    2 * 1 < ([1#8, 2#8, 3#8] : List Byte).length ∧ 1 < (packImage [1#8, 2#8, 3#8]).length := by decide

theorem witness_ReadScreenCopiesTheWindow : (0 : Nat) < 504 ∧ (503 : Nat) < 504 := by decide

/-- MEM4: `SET [0xE000], 1` while a reader reads. -/
theorem witness_ScreenFrameOverlappingATick :
    let s := prog [0x85E1#16, 0xE000#16]
    s.engineDue ∧ s.tickEnabled ∧ ∃ t, step s = .next t ∧ screenWord 0 t = 1#16 ∧ screenWord 0 s = 0#16 ∧
      FrameAdmitted [s, t] (readScreen t) ∧ (503 : Nat) < 504 :=
  ⟨.inl rfl, ⟨rfl, rfl⟩, _, rfl, by decide, by decide,
   readScreen_admitted (List.isChain_pair.mpr rfl) (by simp), by decide⟩

/-- An image load while a reader reads, alone, and between a Stop and an idle turn. -/
theorem witness_ReadScreenNeverMixesImages :
    let s := State.reset.setMoves [.loadImage [1#16] 1]
    s.imageLoadDue ∧ (∃ t, step s = .next t ∧ t.mem ≠ s.mem ∧ IsRun ([] ++ s :: t :: [])) ∧
      ∃ t, IsRun ([s.setMoves [.stop, .loadImage [1#16] 1]] ++ s :: t :: [t]) :=
  ⟨⟨_, _, _, rfl⟩, ⟨_, rfl, by decide, List.isChain_pair.mpr rfl⟩, _,
   List.IsChain.cons_cons rfl (List.IsChain.cons_cons rfl (List.isChain_pair.mpr rfl))⟩

theorem witness_PushThenPopRoundTrip :
    let s := prog []
    s.mem.wf = true ∧ s.skip = false ∧ (Operand.lit 0x1234#16) ≠ .pop ∧ (Operand.lit 0x1234#16) ≠ .push ∧
      ∃ t u, exec (.set .push (.lit 0x1234#16)) s = .next t ∧ exec (.set (.reg .x) .pop) t = .next u :=
  ⟨rfl, rfl, Operand.noConfusion, Operand.noConfusion, _, _, rfl, rfl⟩

theorem witness_JsrThenReturnRoundTrip :
    let s := prog []
    s.mem.wf = true ∧ s.skip = false ∧ ∃ t u, exec (.jsr (.short 5#16)) s = .next t ∧ exec (.set .pc .pop) t = .next u :=
  ⟨rfl, rfl, _, _, rfl, rfl⟩

/-- Both clauses, the first with PC where the store wraps to address 0. -/
theorem witness_StoresAreSeenByTheNextFetch :
    let s := (prog []).setPc 0xFFFD#16
    s.mem.wf = true ∧ s.skip = false ∧ (∃ t, exec (.set (.mem (s.pc + 3#16)) (.lit 0x85C3#16)) s = .next t) ∧
      ∃ t, exec (.set (.mem (s.pc + 1#16)) (.lit 5#16)) s = .next t := ⟨rfl, rfl, ⟨_, rfl⟩, _, rfl⟩

end Sys2Proof.Tests
end

/-! ## Proofs: memory, the image file and the screen (20_memory.md)

R63 (a store), R68 (the image file) and R67, R76 (a screen read across an image load). -/

section
namespace Sys2Proof.Machine

/-! ### A store (R63) -/

/-- Settles O52: the read of a written word, at its own address and at another one. -/
theorem memWriteStoresOneWordOnly : Obligations.MemWriteStoresOneWordOnly := by
  intro s addr v hwf
  refine ⟨?_, fun x hx => memRead_memWrite_ne s hx v, rfl⟩
  rw [memRead_memWrite hwf, if_pos rfl]

/-! ### The program image file (R68) -/

/-- Two bytes make a word, and an odd last byte makes one more. -/
theorem length_packImage (f : List Byte) : (packImage f).length = (f.length + 1) / 2 := by
  induction f using packImage.induct with
  | case1 => rfl
  | case2 hi => simp only [packImage, List.length_singleton]
  | case3 hi lo bytes ih =>
    simp only [packImage, List.length_cons, ih]
    omega

/-- Big-endian words, the byte after an odd last one being 0. -/
theorem getElem?_packImage (f : List Byte) {i : Nat} (h : 2 * i < f.length) :
    (packImage f)[i]? = some (f.getD (2 * i) 0#8 ++ f.getD (2 * i + 1) 0#8) := by
  induction f using packImage.induct generalizing i with
  | case1 => simp at h
  | case2 hi =>
    obtain rfl : i = 0 := by simp only [List.length_singleton] at h; omega
    rfl
  | case3 hi lo bytes ih =>
    cases i with
    | zero => rfl
    | succ j =>
      have hj : 2 * j < bytes.length := by simp only [List.length_cons] at h; omega
      simp only [packImage, List.getElem?_cons_succ, Nat.mul_succ, List.getD_cons_succ, ih hj]

/-- Word `i` of a loaded image stands at address `i` (R67). -/
theorem get_image_zero {ws : List Word} {i : Nat} (h : i < ws.length) :
    some ((Memory.image 0 ws).get i) = ws[i]? := by
  rw [Memory.get_image, if_pos (Nat.zero_le i), Nat.sub_zero, List.getD_eq_getElem _ _ h, List.getElem?_eq_getElem h]

/-- Settles O54: the number of words, each word, and where it lands. -/
theorem imageFilePacking : Obligations.ImageFilePacking :=
  fun f => ⟨length_packImage f, fun _ => getElem?_packImage f, fun _ => get_image_zero⟩

/-! ### A screen read across an image load (R67, R73, R76) -/

/-- A frame admitted for a part of a run is admitted for the whole run. -/
theorem FrameAdmitted.extend {pre mid post : List State} {frame : List Word} (hr : IsRun (pre ++ mid ++ post))
    (h : FrameAdmitted mid frame) : FrameAdmitted (pre ++ mid ++ post) frame := by
  obtain ⟨_, hlen, before, reads, after, rfl, hload, hwords⟩ := h
  exact ⟨hr, hlen, pre ++ before, reads, after ++ post, by simp only [List.append_assoc], hload, hwords⟩

/-- A stretch of a list that is cut in two lies left of the cut, or right of it, or has elements on both sides. -/
theorem stretch_of_cut {α : Type} {left right before reads after : List α}
    (h : left ++ right = before ++ reads ++ after) :
    (∃ rest, left = before ++ reads ++ rest) ∨ (∃ rest, right = rest ++ reads ++ after) ∨
      ∃ l r, reads = l ++ r ∧ l ≠ [] ∧ r ≠ [] ∧ left = before ++ l := by
  rw [List.append_assoc] at h
  rcases List.append_eq_append_iff.mp h with ⟨rest, -, hright⟩ | ⟨l, hleft, hreads⟩
  · exact .inr (.inl ⟨rest, by rw [hright, List.append_assoc]⟩)
  · rcases List.append_eq_append_iff.mp hreads with ⟨rest, hl, -⟩ | ⟨r, hl, hright⟩
    · exact .inl ⟨rest, by rw [hleft, hl, List.append_assoc]⟩
    · by_cases hl0 : l = []
      · exact .inr (.inl ⟨[], by simp [hl, hl0, hright]⟩)
      · by_cases hr0 : r = []
        · exact .inl ⟨[], by simp [hleft, hl, hr0]⟩
        · exact .inr (.inr ⟨l, r, hl, hl0, hr0, hleft⟩)

/-- A stretch without an image load does not reach past a state in which a load is due. -/
theorem not_noImageLoadWithin_of_crossing {before rest l r : List State} {s : State} (hs : s.imageLoadDue)
    (hleft : rest ++ [s] = before ++ l) (hl : l ≠ []) (hr : r ≠ []) : ¬ NoImageLoadWithin (l ++ r) := by
  intro hload
  have hlast : l.getLast hl = s := by
    rw [← List.getLast_append_of_ne_nil (l := before) (by simp [hl]) hl]
    simp only [← hleft, List.getLast_concat]
  exact List.IsChain.rel_getLast_head_of_append hload hl hr (hlast ▸ hs)

/-- The frames admitted across an image load are those of the run up to it and those of the run after it. -/
theorem frameAdmitted_across_load {before after : List State} {s t : State} (hs : s.imageLoadDue)
    (hr : IsRun (before ++ s :: t :: after)) (frame : List Word) :
    FrameAdmitted (before ++ s :: t :: after) frame ↔
      FrameAdmitted (before ++ [s]) frame ∨ FrameAdmitted (t :: after) frame := by
  have hcut : before ++ s :: t :: after = (before ++ [s]) ++ (t :: after) := by simp
  rw [hcut] at hr ⊢
  constructor
  · rintro ⟨-, hlen, pre, reads, post, hduring, hload, hwords⟩
    rcases stretch_of_cut hduring with ⟨rest, hold⟩ | ⟨rest, hnew⟩ | ⟨l, r, rfl, hl, hr0, hleft⟩
    · exact .inl ⟨hr.left_of_append, hlen, pre, reads, rest, hold, hload, hwords⟩
    · exact .inr ⟨hr.right_of_append, hlen, rest, reads, post, hnew, hload, hwords⟩
    · exact absurd hload (not_noImageLoadWithin_of_crossing hs hleft hl hr0)
  · rintro (hold | hnew)
    · exact hold.extend (pre := []) hr
    · rw [← List.append_nil (before ++ [s] ++ t :: after)] at hr ⊢
      exact hnew.extend hr

/-- Settles O60: the second part is the first with no other state in the run, where each side of the load is one state. -/
theorem readScreenNeverMixesImages : Obligations.ReadScreenNeverMixesImages := by
  refine ⟨fun before after s t frame hs hr => frameAdmitted_across_load hs hr frame, fun s t frame hs hstep => ?_⟩
  have hacross := frameAdmitted_across_load (before := []) (after := []) hs (List.isChain_pair.mpr hstep) frame
  simpa only [List.nil_append, frameAdmitted_singleton] using hacross

end Sys2Proof.Machine
end

/-! ## Proofs: the fields of a word and the opcode map (30_encoding.md)

R93 (every word decodes) and R100, R101 (each opcode by its match and mask). -/

section
namespace Sys2Proof

/-! ### Bits of a word as numbers and by mask (R8) -/

theorem toNat_bits (w : Word) (lo len : Nat) : (bits w lo len).toNat = w.toNat / 2 ^ lo % 2 ^ len := by
  rw [bits, BitVec.extractLsb'_toNat, Nat.shiftRight_eq_div_pow]

theorem bits_eq_iff (w : Word) (lo : Nat) {len : Nat} (v : BitVec len) :
    bits w lo len = v ↔ w.toNat / 2 ^ lo % 2 ^ len = v.toNat := by
  rw [← BitVec.toNat_inj, toNat_bits]

/-- The opcode field is what the mask 0x000F leaves (R100). -/
theorem toNat_and_000F (w : Word) : (w &&& 0x000F#16).toNat = w.toNat % 16 :=
  Nat.and_two_pow_sub_one_eq_mod w.toNat 4

/-- The opcode field and the field of bits 9:4 are what the mask 0x03FF leaves (R101). -/
theorem toNat_and_03FF (w : Word) : (w &&& 0x03FF#16).toNat = w.toNat % 1024 :=
  Nat.and_two_pow_sub_one_eq_mod w.toNat 10

/-- The match of a base opcode, 0 included: `(w & 0x000F) = op` (R100). -/
theorem and_000F_eq_iff (w : Word) (op : BitVec 4) : w &&& 0x000F#16 = op.setWidth 16 ↔ bits w 0 4 = op := by
  have hop : op.toNat < 16 := op.isLt
  rw [← BitVec.toNat_inj, toNat_and_000F, BitVec.toNat_setWidth, bits_eq_iff]
  omega

/-- The match of JSR: `(w & 0x03FF) = 0x0010` (R101). -/
theorem and_03FF_eq_0010_iff (w : Word) : w &&& 0x03FF#16 = 0x0010#16 ↔ bits w 0 4 = 0#4 ∧ bits w 4 6 = 0x01#6 := by
  rw [← BitVec.toNat_inj, toNat_and_03FF, bits_eq_iff, bits_eq_iff]
  simp only [BitVec.toNat_ofNat]
  omega

/-! ### The two formats (R91, R92) -/

theorem decodeFields_of_base {w : Word} (h : bits w 0 4 ≠ 0#4) :
    decodeFields w = .base (bits w 0 4) (bits w 4 6) (bits w 10 6) := if_pos h

theorem decodeFields_of_ext {w : Word} (h : bits w 0 4 = 0#4) : decodeFields w = .ext (bits w 4 6) (bits w 10 6) :=
  if_neg (not_not_intro h)

/-- A base word means the instruction of its opcode, operand A taking the first next word (R99). -/
theorem decodeAt_of_base {w : Word} (h : bits w 0 4 ≠ 0#4) (n1 n2 : Word) :
    decodeAt w n1 n2 = baseInstr (bits w 0 4) (operandOf (bits w 4 6) n1)
      (operandOf (bits w 10 6) (if needsWord (bits w 4 6) then n2 else n1)) := by
  rw [decodeAt, decodeFields_of_base h]

/-- An extended word means the instruction of its extended opcode, which is no operand (R98). -/
theorem decodeAt_of_ext {w : Word} (h : bits w 0 4 = 0#4) (n1 n2 : Word) :
    decodeAt w n1 n2 = extInstr (bits w 4 6) (operandOf (bits w 10 6) n1) := by
  rw [decodeAt, decodeFields_of_ext h]

/-! ### Every word decodes (R93) -/

theorem nextWords_le_two (f : Fields) : f.nextWords ≤ 2 := by
  cases f with
  | base op ma mb => exact Nat.add_le_add (Bool.toNat_le _) (Bool.toNat_le _)
  | ext eop mb => exact (Bool.toNat_le _).trans (Nat.le_succ 1)

/-- A list with the next words its head asks for decodes. -/
theorem decode_cons_of_le {w : Word} {ws : List Word} (h : (decodeFields w).nextWords ≤ ws.length) :
    decode (w :: ws) =
      .ok (decodeAt w (ws.getD 0 0#16) (ws.getD 1 0#16), ws.drop (decodeFields w).nextWords) :=
  if_neg (Nat.not_lt.mpr h)

/-- Settles O3: the fields are the word's bits read as numbers, and no instruction asks for more than two next words. -/
theorem everyWordDecodesByItsFields : Obligations.EveryWordDecodesByItsFields := by
  refine ⟨fun w => ⟨fun hbase => ?_, fun hext => ?_⟩, fun w n1 n2 rest => ⟨_, _, decode_cons_of_le ?_⟩⟩
  · have hop : bits w 0 4 ≠ 0#4 := by simpa [bits_eq_iff] using hbase
    refine ⟨_, _, _, decodeFields_of_base hop, ?_, ?_, ?_⟩ <;> rw [toNat_bits] <;> omega
  · have hop : bits w 0 4 = 0#4 := by simpa [bits_eq_iff] using hext
    refine ⟨_, _, decodeFields_of_ext hop, ?_, ?_⟩ <;> rw [toNat_bits] <;> omega
  · exact (nextWords_le_two _).trans (by simp)

/-! ### The opcode map (R100, R101) -/

/-- Entry `k` of the base opcode map is the instruction of opcode `k + 1`, and none is of opcode 0 (R100). -/
theorem baseInstr_of_table {k : Nat} {c : Operand → Operand → Instr}
    (h : [Instr.set, .add, .sub, .mul, .div, .mod, .shl, .shr, .and, .bor, .xor, .ife, .ifn, .ifg, .ifb][k]? = some c) :
    k + 1 < 16 ∧ baseInstr (BitVec.ofNat 4 (k + 1)) = c := by
  have hk : k < 15 := (List.getElem?_eq_some_iff.mp h).1
  refine ⟨Nat.succ_lt_succ hk, ?_⟩
  interval_cases k <;> cases h <;> rfl

/-- Settles O4: the match and mask of each row fixes the opcode fields, which choose the instruction. -/
theorem opcodeMapByMatchAndMask : Obligations.OpcodeMapByMatchAndMask := by
  refine ⟨fun k c hc w n1 n2 hw => ?_, fun w n1 n2 hw => ?_, fun w n1 n2 hw hjsr => ?_⟩
  · obtain ⟨hk, rfl⟩ := baseInstr_of_table hc
    have hop : bits w 0 4 = BitVec.ofNat 4 (k + 1) := by
      rw [← and_000F_eq_iff, hw, BitVec.setWidth_ofNat_of_le_of_lt (by decide) hk]
    have hne : bits w 0 4 ≠ 0#4 := by
      rw [hop]
      bv_omega
    rw [decodeAt_of_base hne, hop]
  · obtain ⟨hop, heop⟩ := (and_03FF_eq_0010_iff w).mp hw
    rw [decodeAt_of_ext hop, heop]
    rfl
  · have hop : bits w 0 4 = 0#4 := (and_000F_eq_iff w 0#4).mp hw
    refine ⟨fun heop => hjsr ((and_03FF_eq_0010_iff w).mpr ⟨hop, heop⟩), ?_⟩
    rw [decodeAt_of_ext hop, form_extInstr]

end Sys2Proof
end

/-! ## Proofs: the operand resolver, the order of resolution, and host moves between ticks (40_execution_cycle.md)

R120 to R131 (fetch and resolution), R135, R137, R138 (what a write-back through a resolved location does) and R140 (a
host operation takes effect between ticks). -/

section
namespace Sys2Proof

/-! ### Mode numbers and their operands (R31, R95) -/

/-- `w16` of an exact sum is the wrapping sum (R9). -/
theorem w16_toNat_add_toNat (a b : Word) : w16 (a.toNat + b.toNat) = a + b := by
  rw [w16, BitVec.ofNat_add, BitVec.ofNat_toNat, BitVec.ofNat_toNat, BitVec.setWidth_eq, BitVec.setWidth_eq]

/-- The listing order is the order of the register indices (R31). -/
theorem index_of_listed {k : Nat} {r : GpReg} (h : [GpReg.a, .b, .c, .x, .y, .z, .i, .j][k]? = some r) :
    BitVec.ofNat 6 k = r.index := by
  have hk : k < 8 := (List.getElem?_eq_some_iff.mp h).1
  interval_cases k <;> cases h <;> rfl

theorem operandOf_index (r : GpReg) (n : Word) : operandOf r.index n = .reg r :=
  operandOf_mode (x := .reg r) rfl n (by simp [Operand.words])

theorem operandOf_08_add_index (r : GpReg) (n : Word) : operandOf (0x08#6 + r.index) n = .ind r :=
  operandOf_mode (x := .ind r) rfl n (by simp [Operand.words])

theorem operandOf_10_add_index (r : GpReg) (n : Word) : operandOf (0x10#6 + r.index) n = .idx r n :=
  operandOf_mode (x := .idx r n) rfl n (by simp [Operand.words])

/-- Modes 0x20 to 0x3F are the literals 0 to 31 (R96). -/
theorem operandOf_20_add {k : Nat} (hk : k < 32) (n : Word) :
    operandOf (BitVec.ofNat 6 (0x20 + k)) n = .short (BitVec.ofNat 16 k) := by
  have hwf : (Operand.short (BitVec.ofNat 16 k)).wf = true := by
    simp only [Operand.wf, BitVec.toNat_ofNat, decide_eq_true_eq]
    omega
  have hmode : (Operand.short (BitVec.ofNat 16 k)).mode = BitVec.ofNat 6 (0x20 + k) := by
    rw [Operand.mode, BitVec.setWidth_ofNat_of_le (by decide), BitVec.ofNat_add]
  exact hmode ▸ operandOf_mode hwf n (by simp [Operand.words])

end Sys2Proof

namespace Sys2Proof.Machine

/-! ### What resolution and a register write leave to be read -/

theorem resolveBase_mem (op : BitVec 4) (a b : Operand) (s : State) : (resolveBase op a b s).after.mem = s.mem := by
  rw [resolveBase_after]
  rfl

theorem memRead_resolveBase (x : Word) (op : BitVec 4) (a b : Operand) (s : State) :
    memRead x (resolveBase op a b s).after = memRead x s := by
  rw [memRead, resolveBase_mem, memRead]

@[simp] theorem readReg_writeReg_same (r : RegName) (v : Word) (s : State) : readReg (writeReg r v s) r = v := by
  cases r with
  | gp r => exact Gp.get_set_same s.gp r v
  | sp => rfl
  | pc => rfl
  | o => rfl

theorem readReg_setO_ne {r : RegName} (hr : r ≠ .o) (v : Word) (s : State) : readReg (s.setO v) r = readReg s r := by
  cases r with
  | o => exact absurd rfl hr
  | gp r => rfl
  | sp => rfl
  | pc => rfl

/-! ### SET, ADD and JSR with no skip pending (R160, R161, R220) -/

section
variable {s : State} (h : s.skip = false)
include h

theorem exec_base_of_not_skip {i : Instr} {op : BitVec 4} {a b : Operand} (hi : i.form = .base op a b) :
    exec i s = .next (commit (aluOf op (resolveBase op a b s).ra.value (resolveBase op a b s).rb.value)
      (resolveBase op a b s).ra.loc (resolveBase op a b s).after) := by
  rw [exec_base hi, unlessSkipped_of_not_skip ((resolveBase_skip op a b s).trans h)]

theorem exec_set_of_not_skip (a b : Operand) :
    exec (.set a b) s = .next (store (resolveBase 0x1#4 a b s).ra.loc (resolveBase 0x1#4 a b s).rb.value
      (resolveBase 0x1#4 a b s).after) :=
  exec_base_of_not_skip (i := .set a b) h rfl

theorem exec_add_of_not_skip (a b : Operand) :
    exec (.add a b) s = .next ((store (resolveBase 0x2#4 a b s).ra.loc
      ((resolveBase 0x2#4 a b s).ra.value + (resolveBase 0x2#4 a b s).rb.value) (resolveBase 0x2#4 a b s).after).setO
      (if (resolveBase 0x2#4 a b s).ra.value.toNat + (resolveBase 0x2#4 a b s).rb.value.toNat ≥ 65536 then 0x0001#16
        else 0x0000#16)) := by
  rw [exec_base_of_not_skip h rfl, ← w16_toNat_add_toNat]
  rfl

theorem exec_jsr_of_not_skip (b : Operand) :
    exec (.jsr b) s = .next ((pushWord (resolveExt 0x01#6 b s).2.pc (resolveExt 0x01#6 b s).2).setPc
      (resolveExt 0x01#6 b s).1.value) := by
  rw [exec_ext (e := 0x01#6) (b := b) rfl, unlessSkipped_of_not_skip ((resolveExt_skip 0x01#6 b s).trans h)]
  rfl

variable {t : State} {a b : Operand}

/-- SET to a location in memory: operand B's value is stored there, and SP has moved with the operands only. -/
theorem exec_set_to_mem {x : Word} (hwf : s.mem.wf = true) (hloc : (resolveBase 0x1#4 a b s).ra.loc = .mem x)
    (hexec : exec (.set a b) s = .next t) :
    t.sp = s.sp + stackShift a + stackShift b ∧
      ∀ y, memRead y t = if y = x then (resolveBase 0x1#4 a b s).rb.value else memRead y s := by
  rw [exec_set_of_not_skip h, hloc] at hexec
  cases hexec
  obtain ⟨-, hsp, -⟩ := resolveBase_fields 0x1#4 a b s
  refine ⟨hsp, fun y => ?_⟩
  rw [store, memRead_memWrite (by rwa [resolveBase_mem]), memRead_resolveBase]

/-- SET to a register: operand B's value. -/
theorem exec_set_to_reg (r : RegName) (hloc : (resolveBase 0x1#4 a b s).ra.loc = .reg r)
    (hexec : exec (.set a b) s = .next t) : readReg t r = (resolveBase 0x1#4 a b s).rb.value := by
  rw [exec_set_of_not_skip h, hloc] at hexec
  cases hexec
  rw [store, readReg_writeReg_same]

/-- ADD to a register but `O`, which the carry overwrites (R136): the sum of the captured values. -/
theorem exec_add_to_reg {r : RegName} (hr : r ≠ .o) (hloc : (resolveBase 0x2#4 a b s).ra.loc = .reg r)
    (hexec : exec (.add a b) s = .next t) :
    readReg t r = (resolveBase 0x2#4 a b s).ra.value + (resolveBase 0x2#4 a b s).rb.value := by
  rw [exec_add_of_not_skip h, hloc] at hexec
  cases hexec
  rw [readReg_setO_ne hr, store, readReg_writeReg_same]

/-- JSR continues at its operand's value (R220). -/
theorem exec_jsr_pc (hexec : exec (.jsr b) s = .next t) : t.pc = (resolveExt 0x01#6 b s).1.value := by
  rw [exec_jsr_of_not_skip h] at hexec
  cases hexec
  rfl

end

/-! ### Each mode number (R126 to R131) -/

/-- Settles O8: the mode number's operand, by the register's index, is what `resolve` is asked for. -/
theorem registerIndirectAndIndexedModes : Obligations.RegisterIndirectAndIndexedModes := by
  intro k r n s hk
  have hindex := index_of_listed hk
  simp only [BitVec.ofNat_add, hindex, w16_toNat_add_toNat]
  refine ⟨?_, ?_, fun _ => ?_⟩
  · rw [operandOf_index, resolve]
  · rw [operandOf_08_add_index, resolve]
  · rw [operandOf_10_add_index, resolve, advancePc]

/-- Settles O9: the location of mode 0x1F is memory at the next word, where SET stores its source. -/
theorem nextWordModes : Obligations.NextWordModes := by
  refine ⟨fun s => ⟨rfl, rfl⟩, fun n b s t hwf hskip hexec => ?_⟩
  obtain ⟨-, hmem⟩ := exec_set_to_mem hskip (x := n) hwf rfl hexec
  exact ⟨(hmem n).trans (if_pos rfl), fun x hx => (hmem x).trans (if_neg hx)⟩

/-- Settles O10: modes 0x18, 0x19 and 0x1A are POP, PEEK and PUSH. -/
theorem stackModes : Obligations.StackModes := fun _ _ => ⟨rfl, rfl, rfl⟩

/-- Settles O11: modes 0x1B, 0x1C and 0x1D are SP, PC and O, and a short literal is its mode number less 0x20. -/
theorem specialRegisterAndShortLiteralModes : Obligations.SpecialRegisterAndShortLiteralModes := by
  refine fun n s => ⟨rfl, rfl, rfl, fun k hk => ?_⟩
  rw [operandOf_20_add hk, resolve]

/-! ### The order of resolution (R120 to R125, R137, R138) -/

/-- Settles O12: each instruction's rule, at the value and the location its resolution computes to. -/
theorem operandAResolvedBeforeOperandB : Obligations.OperandAResolvedBeforeOperandB := by
  refine ⟨fun _ _ _ _ => ⟨rfl, rfl, rfl⟩, fun _ _ _ => rfl, fun s t hwf hskip => ?_⟩
  refine ⟨?setPushSp, ?setPopPop, ?setPeekPop, exec_set_to_reg hskip .sp rfl,
    exec_add_to_reg hskip (r := .sp) (by decide) rfl, fun n => exec_add_to_reg hskip (r := .pc) (by decide) rfl,
    ?setMemPc, fun q p => exec_add_to_reg hskip (r := .gp q) (by simp) rfl,
    fun n => exec_jsr_pc hskip, exec_jsr_pc hskip, fun q => exec_jsr_pc hskip⟩
  case setPushSp =>
    intro hexec
    obtain ⟨hsp, hmem⟩ := exec_set_to_mem hskip (x := s.sp - 1#16) hwf rfl hexec
    exact ⟨by simp only [hsp, stackShift]; bv_omega, (hmem _).trans (if_pos rfl)⟩
  case setPopPop =>
    intro hexec
    obtain ⟨hsp, hmem⟩ := exec_set_to_mem hskip (x := s.sp) hwf rfl hexec
    exact ⟨by simp only [hsp, stackShift]; bv_omega, (hmem _).trans (if_pos rfl)⟩
  case setPeekPop =>
    intro hexec
    obtain ⟨hsp, hmem⟩ := exec_set_to_mem hskip (x := s.sp) hwf rfl hexec
    refine ⟨by simp only [hsp, stackShift]; bv_omega, fun x => ?_⟩
    rw [hmem, ite_eq_right_iff]
    rintro rfl
    rfl
  case setMemPc =>
    intro n hexec
    obtain ⟨-, hmem⟩ := exec_set_to_mem hskip (x := n) hwf rfl hexec
    have hnext : s.pc + 1#16 + 1#16 = s.pc + 2#16 := by bv_omega
    exact (hmem n).trans ((if_pos rfl).trans hnext)

/-! ### Host moves (R140) -/

/-- A host move writes the run state or memory, and nothing else of the block. -/
theorem takeMove_of_ne_tick {m : Move} {s t : State} (hm : m ≠ .tick) (h : takeMove m s = .next t) :
    ∃ r mem, t = (s.setRun r).setMem mem := by
  cases m with
  | tick => exact absurd rfl hm
  | start => cases h; exact ⟨.running, s.mem, rfl⟩
  | stop => cases h; exact ⟨.paused, s.mem, rfl⟩
  | togglePause =>
    cases h
    cases hrun : s.run with
    | running => exact ⟨.paused, s.mem, by rw [hostTogglePause, hrun]; rfl⟩
    | paused => exact ⟨.running, s.mem, by rw [hostTogglePause, hrun]; rfl⟩
  | loadImage words length =>
    rcases hostLoadImage_cases words length s with ⟨-, hl⟩ | ⟨-, -, hl⟩ | ⟨-, -, -, hl⟩ | ⟨-, -, -, hl⟩
    case inr.inr.inr =>
      cases hl.symm.trans h
      exact ⟨s.run, Memory.image 0 words, rfl⟩
    all_goals cases hl.symm.trans h

/-- The due move is taken, and consumed. -/
theorem step_of_moves {m : Move} {ms : List Move} {s : State} (h : s.moves = m :: ms) :
    step s = takeMove m (s.setMoves ms) := by
  rw [step, h]

/-- Settles O47: a host move writes only the run state and memory. -/
theorem hostMovesLeaveTheEngineAlone : Obligations.HostMovesLeaveTheEngineAlone := by
  intro s t m ms hm hmoves hstep
  rw [step_of_moves hmoves] at hstep
  obtain ⟨r, mem, rfl⟩ := takeMove_of_ne_tick hm hstep
  exact ⟨rfl, rfl, rfl, rfl, rfl, rfl, rfl, rfl, rfl, rfl⟩

end Sys2Proof.Machine
end

/-! ## Proofs: the results of SET, the arithmetic and the bitwise opcodes (41_set_arith.md, 42_shift_logic.md)

R160 to R165 and R182 to R184: each ALU triple in terms of the word operations, then what a tick with no skip pending
answers by it. -/

section
namespace Sys2Proof.Machine

/-! ### The exact intermediates, reduced, are the word operations (R9, R159) -/

theorem aluSub_eq (a b : Word) :
    aluSub a b = .withOverflow (a - b) (if a < b then 0xFFFF#16 else 0x0000#16) := by
  have hres : w16 (a.toNat + 65536 - b.toNat) = a - b := by
    rw [w16]
    bv_omega
  rw [aluSub, hres]
  rfl

theorem aluMul_eq (a b : Word) :
    aluMul a b = .withOverflow (a * b) (w16 ((a.toNat * b.toNat) >>> 16)) := by
  have hres : w16 (a.toNat * b.toNat) = a * b := by
    rw [w16, BitVec.ofNat_mul, BitVec.ofNat_toNat, BitVec.ofNat_toNat, BitVec.setWidth_eq, BitVec.setWidth_eq]
  rw [aluMul, hres, Nat.shiftRight_eq_div_pow]

theorem aluDiv_of_eq_zero (a : Word) {b : Word} (hb : b = 0#16) : aluDiv a b = .withOverflow 0#16 0#16 := if_pos hb

theorem aluDiv_of_ne_zero (a : Word) {b : Word} (hb : b ≠ 0#16) :
    aluDiv a b = .withOverflow (a / b) (w16 ((a.toNat <<< 16) / b.toNat)) := by
  have hres : w16 (a.toNat / b.toNat) = a / b := BitVec.udiv_def.symm
  rw [aluDiv, if_neg hb, hres, Nat.shiftLeft_eq]

theorem aluMod_of_eq_zero (a : Word) {b : Word} (hb : b = 0#16) : aluMod a b = .value 0#16 := by
  rw [aluMod, if_pos hb]

theorem aluMod_of_ne_zero (a : Word) {b : Word} (hb : b ≠ 0#16) : aluMod a b = .value (a % b) := by
  have hres : w16 (a.toNat % b.toNat) = a % b := BitVec.umod_def.symm
  rw [aluMod, if_neg hb, hres]

/-! ### What a tick with no skip pending answers, by the shape of its ALU triple (R134, R136) -/

section
variable {i : Instr} {op : BitVec 4} {a b : Operand} {s : State} {v o : Word}
  (h : s.skip = false) (hi : i.form = .base op a b)
include h hi

/-- An opcode that gives a value only stores it at operand A's location and leaves `O`. -/
theorem exec_of_alu_value
    (halu : aluOf op (resolveBase op a b s).ra.value (resolveBase op a b s).rb.value = .value v) :
    exec i s = .next (store (resolveBase op a b s).ra.loc v (resolveBase op a b s).after) := by
  rw [exec_base_of_not_skip h hi, halu, commit_value]

/-- An opcode that gives an overflow word writes it to `O` after the write-back. -/
theorem exec_of_alu_withOverflow
    (halu : aluOf op (resolveBase op a b s).ra.value (resolveBase op a b s).rb.value = .withOverflow v o) :
    exec i s = .next ((store (resolveBase op a b s).ra.loc v (resolveBase op a b s).after).setO o) := by
  rw [exec_base_of_not_skip h hi, halu, commit_withOverflow]

end

/-! ### ADD, SUB, MUL, DIV and MOD (R161 to R165) -/

/-- Settles O13: the wrapping sum is the exact sum modulo 65536. -/
theorem addResultAndCarry : Obligations.AddResultAndCarry := fun a b _ h => exec_add_of_not_skip h a b

/-- Settles O14: the wrapping difference is the exact one modulo 65536, and the borrow compares the captured words. -/
theorem subResultAndBorrow : Obligations.SubResultAndBorrow := fun _ _ _ h =>
  exec_of_alu_withOverflow h rfl (aluSub_eq _ _)

/-- Settles O15: the wrapping product is the low word of the exact one. -/
theorem mulResultAndHighWord : Obligations.MulResultAndHighWord := fun _ _ _ h =>
  exec_of_alu_withOverflow h rfl (aluMul_eq _ _)

/-- Settles O16: by whether the divisor is 0. -/
theorem divResultAndFraction : Obligations.DivResultAndFraction := fun _ _ _ h =>
  ⟨fun hzero => exec_of_alu_withOverflow h rfl (aluDiv_of_eq_zero _ hzero),
    fun hne => exec_of_alu_withOverflow h rfl (aluDiv_of_ne_zero _ hne)⟩

/-- Settles O17: by whether the divisor is 0. -/
theorem modResult : Obligations.ModResult := fun _ _ _ h =>
  ⟨fun hzero => exec_of_alu_value h rfl (aluMod_of_eq_zero _ hzero),
    fun hne => exec_of_alu_value h rfl (aluMod_of_ne_zero _ hne)⟩

/-! ### SET, AND, BOR and XOR (R160, R182 to R184) -/

/-- Settles O20: the ALU of each of the four opcodes gives the stored value, and no overflow word. -/
theorem setAndBitwiseResults : Obligations.SetAndBitwiseResults := fun a b _ h =>
  ⟨exec_set_of_not_skip h a b, exec_of_alu_value (i := .and a b) h rfl rfl,
    exec_of_alu_value (i := .bor a b) h rfl rfl, exec_of_alu_value (i := .xor a b) h rfl rfl⟩

end Sys2Proof.Machine
end

/-! ## Proofs: the conditionals (43_conditional.md)

R200 to R203 where no skip is pending, and R132, R133 (decision D4) for a base instruction that is itself skipped. -/

section
namespace Sys2Proof.Machine

/-- A skipped base instruction resolves its operands and clears the skip; its ALU is not asked (R132, R133). -/
theorem exec_base_of_skip {i : Instr} {op : BitVec 4} {a b : Operand} {s : State} (h : s.skip = true)
    (hi : i.form = .base op a b) : exec i s = .next ((resolveBase op a b s).after.setSkip false) := by
  rw [exec_base hi, unlessSkipped_of_skip ((resolveBase_skip op a b s).trans h)]

/-- An opcode that gives only a condition writes nothing back, and sets `skip` when the condition fails. -/
theorem exec_of_alu_condition {i : Instr} {op : BitVec 4} {a b : Operand} {s : State} {p : Prop} [Decidable p]
    (h : s.skip = false) (hi : i.form = .base op a b)
    (halu : aluOf op (resolveBase op a b s).ra.value (resolveBase op a b s).rb.value = .condition (decide p)) :
    exec i s = .next (if p then (resolveBase op a b s).after else (resolveBase op a b s).after.setSkip true) := by
  simp only [exec_base_of_not_skip h hi, halu, commit_condition, decide_eq_true_eq]

/-- Settles O21: a skipped conditional only resolves, as every base instruction does; else the ALU of each of the four
opcodes gives the stated condition, that of IFG as the order of the operands' numbers. -/
theorem conditionalsSetSkipOnFailure : Obligations.ConditionalsSetSkipOnFailure :=
  ⟨fun _ _ _ _ _ hform _ hskip => exec_base_of_skip hskip hform,
    fun a b _ h =>
      ⟨exec_of_alu_condition (i := .ife a b) h rfl rfl, exec_of_alu_condition (i := .ifn a b) h rfl rfl,
        exec_of_alu_condition (i := .ifg a b) h rfl rfl, exec_of_alu_condition (i := .ifb a b) h rfl rfl⟩⟩

end Sys2Proof.Machine
end

/-! ## Proofs: JSR (44_extended.md)

R220 where no skip is pending, and R132, R133 (decision D4) for an extended instruction that is itself skipped. -/

section
namespace Sys2Proof.Machine

/-- A skipped extended instruction resolves its operand and clears the skip; its effect does not happen (R132, R133). -/
theorem exec_ext_of_skip {i : Instr} {e : BitVec 6} {b : Operand} {s : State} (h : s.skip = true)
    (hi : i.form = .ext e b) : exec i s = .next ((resolveExt e b s).2.setSkip false) := by
  rw [exec_ext hi, unlessSkipped_of_skip ((resolveExt_skip e b s).trans h)]

/-- Settles O22: PC is past the whole instruction once operand B is resolved, and JSR's push is a store of that PC at the
decremented SP. -/
theorem jsrPushesReturnAddressAndJumps : Obligations.JsrPushesReturnAddressAndJumps := fun b s =>
  ⟨resolveExt_pc (i := .jsr b) rfl s, fun h => exec_jsr_of_not_skip h b, fun h => exec_ext_of_skip h rfl⟩

end Sys2Proof.Machine
end

/-! ## Proofs: run control (60_exceptions.md)

R252: what a step from a Paused state keeps, and that no instruction touches what surrounds it, the run state first. -/

section
namespace Sys2Proof.Machine

/-! ### No instruction touches its surroundings -/

theorem SameSurroundings.refl (s : State) : SameSurroundings s s := ⟨rfl, rfl, rfl, rfl, rfl, rfl⟩

theorem SameSurroundings.trans {s t u : State} (hst : SameSurroundings s t) (htu : SameSurroundings t u) :
    SameSurroundings s u := by
  obtain ⟨hrun, hpolicy, hmoves, hstep, hextraA, hextraB⟩ := hst
  obtain ⟨hrun', hpolicy', hmoves', hstep', hextraA', hextraB'⟩ := htu
  exact ⟨hrun'.trans hrun, hpolicy'.trans hpolicy, hmoves'.trans hmoves, hstep'.trans hstep, hextraA'.trans hextraA,
    hextraB'.trans hextraB⟩

theorem store_sameSurroundings (l : Loc) (v : Word) (s : State) : SameSurroundings s (store l v s) := by
  rcases store_cases l v s with ⟨r, -, h⟩ | ⟨-, h⟩ | ⟨-, h⟩ | ⟨-, h⟩ | ⟨a, -, h⟩ | ⟨-, h⟩ <;>
  · rw [h]
    exact .refl s

/-- The execute stage of a base instruction, by the shape of its ALU triple. -/
theorem commit_sameSurroundings {op : BitVec 4} (hop : op ≠ 0#4) (a b : Word) (l : Loc) (s : State) :
    SameSurroundings s (commit (aluOf op a b) l s) := by
  rcases aluOf_shape op a b hop with ⟨-, -, -, v, halu⟩ | ⟨-, -, -, v, o, halu⟩ | ⟨-, -, -, c, halu⟩ <;> rw [halu]
  · exact store_sameSurroundings l v s
  · exact store_sameSurroundings l v s
  · cases c <;> exact .refl s

theorem raiseUnimplemented_sameSurroundings (w : Word) (s : State) : SameSurroundings s (raiseUnimplemented w s) := by
  rcases raiseUnimplemented_cases w s with ⟨-, h⟩ | ⟨-, h⟩ <;>
  · rw [h]
    exact .refl s

/-- The execute stage of an extended instruction: JSR's push and jump, or the abnormal condition. -/
theorem effectOf_sameSurroundings (e m : BitVec 6) (v : Word) (s : State) :
    SameSurroundings s (effectOf e m v s) := by
  unfold effectOf
  split
  · exact .refl s
  · exact raiseUnimplemented_sameSurroundings (encExt e m) s

theorem unlessSkipped_sameSurroundings {execute : State → State} {s : State}
    (h : SameSurroundings s (execute s)) : SameSurroundings s (unlessSkipped execute s) := by
  unfold unlessSkipped
  split
  · exact .refl s
  · exact h

/-- An instruction keeps run control, the policy, the moves due and the unwritten words of the latch: its resolution does,
and so does its execute stage. -/
theorem exec_sameSurroundings {i : Instr} {s t : State} (h : exec i s = .next t) : SameSurroundings s t := by
  cases hi : i.form with
  | base op a b =>
    obtain ⟨-, -, -, -, -, -, -, hresolve⟩ := resolveBase_fields op a b s
    cases (exec_base hi s).symm.trans h
    exact hresolve.trans (unlessSkipped_sameSurroundings (commit_sameSurroundings (form_base_ne_zero hi) _ _ _ _))
  | ext e b =>
    obtain ⟨-, -, -, -, -, -, -, hresolve⟩ := resolveExt_fields e b s
    cases (exec_ext hi s).symm.trans h
    exact hresolve.trans (unlessSkipped_sameSurroundings (effectOf_sameSurroundings _ _ _ _))

/-! ### Moves while Paused (R252, R275 to R278) -/

/-- An image load that is not refused replaces the memory only (R67). -/
theorem hostLoadImage_next {words : List Word} {n : Nat} {s t : State} (h : hostLoadImage words n s = .next t) :
    t = s.setMem (Memory.image 0 words) := by
  rcases hostLoadImage_cases words n s with ⟨-, hl⟩ | ⟨-, -, hl⟩ | ⟨-, -, -, hl⟩ | ⟨-, -, -, hl⟩
  case inr.inr.inr =>
    cases hl.symm.trans h
    rfl
  all_goals cases hl.symm.trans h

section
variable {s t : State} (hpaused : s.run = .paused)
include hpaused

/-- While Paused the Engine's turn passes (log 3), or answers the fault of an earlier tick (log 4). -/
theorem engineTurn_of_paused (h : engineTurn s = .next t) : t = s := by
  rcases engineTurn_cases s with ⟨w, -, hturn⟩ | ⟨-, -, hturn⟩ | ⟨⟨hrunning, -⟩, -⟩
  · cases hturn.symm.trans h
  · cases hturn.symm.trans h
    rfl
  · cases hpaused.symm.trans hrunning

/-- All a move can do to a Paused state: Start and TogglePause wake the Engine, LoadImage replaces memory, and nothing
else changes anything. -/
theorem takeMove_of_paused {m : Move} (h : takeMove m s = .next t) :
    (m = .start ∨ m = .togglePause) ∧ t = s.setRun .running ∨
    (∃ words n, m = .loadImage words n) ∧ (∃ mem, t = s.setMem mem) ∨
    t = s := by
  cases m with
  | tick => exact .inr (.inr (engineTurn_of_paused hpaused h))
  | start => cases h; exact .inl ⟨.inl rfl, rfl⟩
  | stop => cases h; exact .inr (.inr (by rw [hostStop, ← hpaused]; rfl))
  | togglePause => cases h; exact .inl ⟨.inr rfl, by rw [hostTogglePause, hpaused]⟩
  | loadImage words n => exact .inr (.inl ⟨⟨words, n, rfl⟩, Memory.image 0 words, hostLoadImage_next h⟩)

end

/-- Settles O48: with no move due the Engine's turn passes, and a due move does one of three things; the run state is part
of an instruction's surroundings. -/
theorem pausedKeepsAllStateUntilWoken : Obligations.PausedKeepsAllStateUntilWoken := by
  refine ⟨fun s t hpaused hstep => ?_, fun i s t h => (exec_sameSurroundings h).1⟩
  have hasleep : s.run ≠ .running := by simp [hpaused]
  cases hmoves : s.moves with
  | nil =>
    rw [step, hmoves] at hstep
    obtain rfl := engineTurn_of_paused hpaused hstep
    exact ⟨rfl, rfl, rfl, rfl, rfl, .inr rfl, fun hrun => absurd hrun hasleep⟩
  | cons m ms =>
    rw [step_of_moves hmoves] at hstep
    rcases takeMove_of_paused (s := s.setMoves ms) hpaused hstep with ⟨hwake, rfl⟩ | ⟨⟨words, n, rfl⟩, mem, rfl⟩ | rfl
    · exact ⟨rfl, rfl, rfl, rfl, rfl, .inr rfl, fun _ => ⟨ms, by simpa using hwake⟩⟩
    · exact ⟨rfl, rfl, rfl, rfl, rfl, .inl ⟨words, n, ms, rfl⟩, fun hrun => absurd hrun hasleep⟩
    · exact ⟨rfl, rfl, rfl, rfl, rfl, .inr rfl, fun hrun => absurd hrun hasleep⟩

end Sys2Proof.Machine
end

/-! ## Proofs: run control and the boot sequence (70_reset_and_hazards.md)

R275 to R277 (Start, Stop, TogglePause) and R272 (construct, load, start, and the Engine runs image word 0). -/

section
namespace Sys2Proof.Machine

/-! ### Start, Stop and TogglePause (R275 to R277) -/

theorem hostTogglePause_eq (s : State) :
    hostTogglePause s = s.setRun (if s.run = .running then .paused else .running) := by
  unfold hostTogglePause
  cases hrun : s.run <;> rfl

/-- Settles O46: the due move is consumed, and each of the three is a write of the run state. -/
theorem controlPortOperations : Obligations.ControlPortOperations := fun s ms =>
  ⟨fun hstart => step_of_moves hstart, fun hstop => step_of_moves hstop,
    fun htoggle => (step_of_moves htoggle).trans (congrArg Host.Outcome.next (hostTogglePause_eq (s.setMoves ms)))⟩

/-! ### An image load that is accepted, and the memory it leaves (R67) -/

theorem hostLoadImage_of_paused {s : State} {words : List Word} (hpaused : s.run = .paused)
    (hfits : words.length ≤ 65536) :
    hostLoadImage words words.length s = .next (s.setMem (Memory.image 0 words)) := by
  rcases hostLoadImage_cases words words.length s with ⟨hrunning, -⟩ | ⟨-, hlong, -⟩ | ⟨-, -, hlen, -⟩ | ⟨-, -, -, hload⟩
  · cases hpaused.symm.trans hrunning
  · exact absurd hlong (Nat.not_lt.mpr hfits)
  · exact absurd rfl hlen
  · exact hload

/-- A memory holding an image from address 0 on reads as its words, and as 0 past them. -/
theorem memRead_of_mem_image {s : State} {words : List Word} (h : s.mem = Memory.image 0 words) (x : Word) :
    memRead x s = words.getD x.toNat 0#16 := by
  rw [memRead, h, Memory.get_image, if_pos (Nat.zero_le _), Nat.sub_zero]

/-! ### The Engine's tick, and the first one after booting (R120 to R122, R272, R278) -/

/-- With no move due, an enabled Engine runs the instruction at PC. -/
theorem step_of_tickEnabled {s : State} (hmoves : s.moves = []) (h : s.tickEnabled) :
    step s = exec (fetchInstr s) s := by
  obtain ⟨hrunning, hok⟩ := h
  rw [step, hmoves]
  rcases engineTurn_cases s with ⟨w, hfaulted, -⟩ | ⟨-, hpaused, -⟩ | ⟨-, hturn⟩
  · cases hok.symm.trans hfaulted
  · cases hpaused.symm.trans hrunning
  · exact hturn

/-- At address 0 of a loaded image the instruction is that of its words 0, 1 and 2. -/
theorem fetchInstr_of_mem_image {s : State} {words : List Word} (hpc : s.pc = 0#16)
    (hmem : s.mem = Memory.image 0 words) :
    fetchInstr s = decodeAt (words.getD 0 0#16) (words.getD 1 0#16) (words.getD 2 0#16) := by
  simp only [fetchInstr, hpc, memRead_of_mem_image hmem]
  rfl

/-- A run whose first step answers a next state goes on from there. -/
theorem run_succ_of_step {s t : State} (h : step s = .next t) (n : Nat) :
    Sys2Proof.core.run (n + 1) s = Sys2Proof.core.run n t := by
  have hcore : Sys2Proof.core.step s = .next t := h
  simp only [Host.Core.run, hcore]

/-- The state that loading `words` and starting the Engine makes of the constructed block. -/
def bootState (words : List Word) : State :=
  (State.reset.setMem (Memory.image 0 words)).setRun .running

/-- Both moves are accepted: the image load because the constructed block is Paused, the Start always. -/
theorem run_load_start {words : List Word} (hfits : words.length ≤ 65536) :
    Sys2Proof.core.run 2 (State.reset.setMoves [.loadImage words words.length, .start]) =
      .next (bootState words) := by
  have hload : step (State.reset.setMoves [.loadImage words words.length, .start]) =
      .next ((State.reset.setMoves [.start]).setMem (Memory.image 0 words)) := by
    rw [step_of_moves (setMoves_moves _ _)]
    exact hostLoadImage_of_paused rfl hfits
  have hstart : step ((State.reset.setMoves [.start]).setMem (Memory.image 0 words)) = .next (bootState words) :=
    step_of_moves (m := .start) (ms := []) rfl
  exact (run_succ_of_step hload 1).trans (run_succ_of_step hstart 0)

/-- Settles O50: the two moves lead to a Running state with PC 0 and the image in memory, whose tick is enabled. -/
theorem bootRunsTheImageFromAddressZero : Obligations.BootRunsTheImageFromAddressZero := by
  refine fun words hfits => ⟨rfl, bootState words, run_load_start hfits, rfl, rfl, memRead_of_mem_image rfl, ?_⟩
  rw [step_of_tickEnabled rfl ⟨rfl, rfl⟩, fetchInstr_of_mem_image rfl rfl]

end Sys2Proof.Machine
end

/-! ## Proofs: the round trips of the encoding (30_encoding.md sections 1 to 5)

Decoding the words of a well-formed instruction, and encoding the instruction that words decode to. -/

section
namespace Sys2Proof

/-! ### The next words of an operand (R98, R99) -/

/-- An operand reads its next word at the head of the words it consumes and those after them. -/
theorem operandOf_mode_head {x : Operand} (h : x.wf = true) (rest : List Word) :
    operandOf x.mode ((x.words ++ rest).getD 0 0#16) = x := by
  refine operandOf_mode h _ fun k hk => ?_
  rw [hk]
  rfl

/-- Operand B's next word stands behind operand A's, if A has one. -/
theorem getD_after_words {x : Operand} (h : x.wf = true) (rest : List Word) :
    (if needsWord x.mode then (x.words ++ rest).getD 1 0#16 else (x.words ++ rest).getD 0 0#16) =
      rest.getD 0 0#16 := by
  have hlen := words_length h
  cases hneeds : needsWord x.mode with
  | true =>
    obtain ⟨k, hk⟩ := List.length_eq_one_iff.mp (hlen.trans (congrArg Bool.toNat hneeds))
    rw [hk]
    rfl
  | false =>
    rw [List.length_eq_zero_iff.mp (hlen.trans (congrArg Bool.toNat hneeds))]
    rfl

/-! ### Decoding encoded words -/

/-- A list that starts with a word and exactly the next words it asks for decodes, and the rest is left. -/
theorem decode_cons_append {w : Word} {ws : List Word} (h : (decodeFields w).nextWords = ws.length)
    (rest : List Word) :
    decode (w :: (ws ++ rest)) = .ok (decodeAt w ((ws ++ rest).getD 0 0#16) ((ws ++ rest).getD 1 0#16), rest) := by
  rw [decode_cons_of_le (by simp [h]), h, List.drop_left]

theorem decode_encode_base {i : Instr} {op : BitVec 4} {a b : Operand} (hi : i.form = .base op a b)
    (ha : a.wf = true) (hb : b.wf = true) (rest : List Word) : decode (encode i ++ rest) = .ok (i, rest) := by
  have hfields := decodeFields_encBase (Machine.form_base_ne_zero hi) a.mode b.mode
  have hnext : (decodeFields (encBase op a.mode b.mode)).nextWords = (a.words ++ b.words).length := by
    rw [hfields, Fields.nextWords, List.length_append, words_length ha, words_length hb]
  have hdecode := decode_cons_append hnext rest
  rw [decodeAt, hfields] at hdecode
  simp only [List.append_assoc, operandOf_mode_head ha, getD_after_words ha, operandOf_mode_head hb,
    baseInstr_of_form hi] at hdecode
  rw [encode, hi, Form.word, Form.words, List.cons_append, List.append_assoc, hdecode]

theorem decode_encode_ext {i : Instr} {e : BitVec 6} {b : Operand} (hi : i.form = .ext e b) (hb : b.wf = true)
    (rest : List Word) : decode (encode i ++ rest) = .ok (i, rest) := by
  have hfields := decodeFields_encExt e b.mode
  have hnext : (decodeFields (encExt e b.mode)).nextWords = b.words.length := by
    rw [hfields, Fields.nextWords, words_length hb]
  have hdecode := decode_cons_append hnext rest
  rw [decodeAt, hfields] at hdecode
  simp only [operandOf_mode_head hb, extInstr_of_form hi] at hdecode
  rw [encode, hi, Form.word, Form.words, List.cons_append, hdecode]

/-- Settles O1: by the format of the instruction, whose operands are well-formed where it is. -/
theorem decodeOfEncodeIsTheInstruction : Obligations.DecodeOfEncodeIsTheInstruction := by
  intro i rest hwf
  rw [wf_of_form] at hwf
  cases hi : i.form with
  | base op a b =>
    rw [hi, Bool.and_eq_true] at hwf
    obtain ⟨ha, hb⟩ := hwf
    exact decode_encode_base hi ha hb rest
  | ext e b =>
    rw [hi] at hwf
    exact decode_encode_ext hi hwf rest

/-! ### Encoding a decoded instruction -/

/-- The instruction decoded from any word is well-formed, and encodes to the word and the next words it asks for. -/
theorem wf_and_encode_decodeAt (w n1 n2 : Word) :
    (decodeAt w n1 n2).wf = true ∧ encode (decodeAt w n1 n2) = w :: [n1, n2].take (decodeFields w).nextWords := by
  rw [wf_of_form, encode]
  by_cases hop : bits w 0 4 = 0#4
  · obtain ⟨hmode, hwf, hwords⟩ := mode_operandOf (bits w 10 6) n1
    have hword : encExt (bits w 4 6) (bits w 10 6) = w := by
      have hbits := encBase_bits w
      rw [hop] at hbits
      exact (encExt_eq_encBase _ _).trans hbits
    rw [decodeAt_of_ext hop, form_extInstr, decodeFields_of_ext hop, Form.word, Form.words, hmode, hwords, hword]
    refine ⟨hwf, ?_⟩
    cases hneeds : needsWord (bits w 10 6) <;> simp [Fields.nextWords, hneeds]
  · obtain ⟨hmodeA, hwfA, hwordsA⟩ := mode_operandOf (bits w 4 6) n1
    obtain ⟨hmodeB, hwfB, hwordsB⟩ :=
      mode_operandOf (bits w 10 6) (if needsWord (bits w 4 6) then n2 else n1)
    rw [decodeAt_of_base hop, form_baseInstr hop, decodeFields_of_base hop, Form.word, Form.words, hmodeA, hmodeB,
      hwordsA, hwordsB, encBase_bits]
    refine ⟨Bool.and_eq_true_iff.mpr ⟨hwfA, hwfB⟩, ?_⟩
    cases hA : needsWord (bits w 4 6) <;> cases hB : needsWord (bits w 10 6) <;> simp [Fields.nextWords, hA, hB]

/-- Settles O2: the instruction word itself is the first of the words its length counts. -/
theorem encodeOfDecodeIsTheWords : Obligations.EncodeOfDecodeIsTheWords := by
  intro w n1 n2
  obtain ⟨hwf, hencode⟩ := wf_and_encode_decodeAt w n1 n2
  exact ⟨hwf, by rw [hencode, lengthOf, Nat.add_comm, List.take_succ_cons]⟩

/-- The instruction word of a decoded instruction is the word it was decoded from. -/
theorem word_decodeAt (w n1 n2 : Word) : (decodeAt w n1 n2).form.word = w :=
  (List.cons.inj (wf_and_encode_decodeAt w n1 n2).2).1

/-- Settles O5: each of the twelve words is decoded by its fields. -/
theorem sampleWordsDecode : Obligations.SampleWordsDecode :=
  ⟨rfl, rfl, rfl, rfl, rfl, rfl, rfl, rfl, rfl, rfl, rfl, rfl⟩

end Sys2Proof
end

/-! ## Proofs: what one tick can do (40_execution_cycle.md sections 2 to 4)

The rules of the write-back, the push and the abnormal condition, the state a tick's execute stage starts from, and the
four cases of an execute stage. The frames and the whole-machine rules below go through these. -/

section
namespace Sys2Proof.Machine

/-! ### Rules of the write-back (R135) -/

@[simp] theorem store_keeps (l : Loc) (v : Word) (s : State) :
    (store l v s).skip = s.skip ∧ (store l v s).latch = s.latch ∧ (store l v s).faulted = s.faulted ∧
      (store l v s).unimpl = s.unimpl := by
  rcases store_cases l v s with ⟨r, -, h⟩ | ⟨-, h⟩ | ⟨-, h⟩ | ⟨-, h⟩ | ⟨a, -, h⟩ | ⟨-, h⟩ <;>
  · rw [h]
    exact ⟨rfl, rfl, rfl, rfl⟩

/-- Writing another register leaves a register alone. -/
theorem readReg_writeReg_ne {q r : RegName} (h : q ≠ r) (v : Word) (s : State) :
    readReg (writeReg q v s) r = readReg s r := by
  cases q with
  | gp q =>
    cases r with
    | gp r => exact Gp.get_set_ne s.gp (fun hc => h (congrArg RegName.gp hc.symm)) v
    | _ => rfl
  | o => exact readReg_setO_ne h.symm v s
  | sp => cases r with
    | sp => exact absurd rfl h
    | _ => rfl
  | pc => cases r with
    | pc => exact absurd rfl h
    | _ => rfl

/-- A register changes only by a write-back to it. -/
theorem readReg_store_of_ne {l : Loc} {r : RegName} (h : l ≠ .reg r) (v : Word) (s : State) :
    readReg (store l v s) r = readReg s r := by
  cases l with
  | reg q => exact readReg_writeReg_ne (fun hc => h (congrArg Loc.reg hc)) v s
  | mem a => cases r <;> rfl
  | none => rfl

theorem mem_writeReg (r : RegName) (v : Word) (s : State) : (writeReg r v s).mem = s.mem := by
  cases r <;> rfl

/-- A word of memory changes only by a write-back to it. -/
theorem memRead_store_of_ne {l : Loc} {x : Word} (h : l ≠ .mem x) (v : Word) (s : State) :
    memRead x (store l v s) = memRead x s := by
  cases l with
  | reg r => rw [store, memRead, mem_writeReg, memRead]
  | mem a => exact memRead_memWrite_ne s (fun hc => h (congrArg Loc.mem hc.symm)) v
  | none => rfl

theorem store_wf {s : State} (h : s.mem.wf = true) (l : Loc) (v : Word) : (store l v s).mem.wf = true := by
  cases l with
  | reg r => rwa [store, mem_writeReg]
  | mem a => exact memWrite_wf h a v
  | none => exact h

/-! ### Rules of the push and the abnormal condition (R36, R225) -/

@[simp] theorem pushWord_keeps (v : Word) (s : State) :
    (pushWord v s).gp = s.gp ∧ (pushWord v s).sp = s.sp - 1#16 ∧ (pushWord v s).pc = s.pc ∧ (pushWord v s).o = s.o ∧
      (pushWord v s).skip = s.skip ∧ (pushWord v s).latch = s.latch ∧ (pushWord v s).faulted = s.faulted ∧
      (pushWord v s).unimpl = s.unimpl := ⟨rfl, rfl, rfl, rfl, rfl, rfl, rfl, rfl⟩

@[simp] theorem raiseUnimplemented_keeps (w : Word) (s : State) :
    (raiseUnimplemented w s).gp = s.gp ∧ (raiseUnimplemented w s).sp = s.sp ∧ (raiseUnimplemented w s).pc = s.pc ∧
      (raiseUnimplemented w s).o = s.o ∧ (raiseUnimplemented w s).skip = s.skip ∧
      (raiseUnimplemented w s).latch = s.latch ∧ (raiseUnimplemented w s).mem = s.mem ∧
      (raiseUnimplemented w s).unimpl = true := by
  rcases raiseUnimplemented_cases w s with ⟨-, h⟩ | ⟨-, h⟩ <;>
  · rw [h]
    exact ⟨rfl, rfl, rfl, rfl, rfl, rfl, rfl, rfl⟩

/-! ### Locations name their operand (R46, R125) -/

/-- The operand form that names a register (R126, R131). -/
def RegName.operand : RegName → Operand
  | .gp r => .reg r
  | .sp => .sp
  | .pc => .pc
  | .o => .o

theorem resolve_loc_eq_reg {x : Operand} {s : State} {r : RegName} (h : (resolve x s).1.loc = .reg r) :
    x = r.operand := by
  cases x <;> cases h <;> rfl

theorem resolveBase_loc_eq_reg {op : BitVec 4} {a b : Operand} {s : State} {r : RegName}
    (h : (resolveBase op a b s).ra.loc = .reg r) : a = r.operand := resolve_loc_eq_reg h

/-! ### The state the execute stage starts from -/

/-- The state after the fetch and the resolution of every operand (R120, R123, R124). -/
def resolvedState : Form → State → State
  | .base op a b, s => (resolveBase op a b s).after
  | .ext e b, s => (resolveExt e b s).2

@[simp] theorem resolvedState_skip (f : Form) (s : State) : (resolvedState f s).skip = s.skip := by
  cases f with
  | base op a b => exact resolveBase_skip op a b s
  | ext e b => exact resolveExt_skip e b s

@[simp] theorem resolvedState_fields (f : Form) (s : State) :
    (resolvedState f s).gp = s.gp ∧ (resolvedState f s).sp = s.sp + formStackShift f ∧
      (resolvedState f s).o = s.o ∧ (resolvedState f s).mem = s.mem ∧ (resolvedState f s).faulted = s.faulted ∧
      (resolvedState f s).unimpl = false ∧ (resolvedState f s).latch.opword = f.word ∧
      SameSurroundings s (resolvedState f s) := by
  cases f with
  | base op a b =>
    obtain ⟨hgp, hsp, hrest⟩ := resolveBase_fields op a b s
    exact ⟨hgp, hsp.trans (BitVec.add_assoc _ _ _), hrest⟩
  | ext e b => exact resolveExt_fields e b s

@[simp] theorem resolvedState_pc (i : Instr) (s : State) :
    (resolvedState i.form s).pc = s.pc + instrLength i := by
  cases hi : i.form with
  | base op a b => exact resolveBase_pc hi s
  | ext e b => exact resolveExt_pc hi s

/-! ### The execute stage (R134, R136, R220, R225) -/

/-- What a tick of `i` from `s` leads to: the skip, or one of the four execute stages. An opcode that gives no overflow
word leaves `O` as the write-back left it. -/
inductive Tick (i : Instr) (s : State) : State → Prop
  | skipped (hskip : s.skip = true) : Tick i s ((resolvedState i.form s).setSkip false)
  | result {op : BitVec 4} {a b : Operand} {v o : Word} (hskip : s.skip = false) (hi : i.form = .base op a b)
      (hres : writesResult op = true)
      (halu : aluOf op (resolveBase op a b s).ra.value (resolveBase op a b s).rb.value = .value v ∧
          writesOverflow op = false ∧ o = (store (resolveBase op a b s).ra.loc v (resolvedState i.form s)).o ∨
        aluOf op (resolveBase op a b s).ra.value (resolveBase op a b s).rb.value = .withOverflow v o ∧
          writesOverflow op = true) :
      Tick i s ((store (resolveBase op a b s).ra.loc v (resolvedState i.form s)).setO o)
  | condition {op : BitVec 4} {a b : Operand} {c : Bool} (hskip : s.skip = false) (hi : i.form = .base op a b)
      (hcond : isConditional op = true)
      (halu : aluOf op (resolveBase op a b s).ra.value (resolveBase op a b s).rb.value = .condition c) :
      Tick i s ((resolvedState i.form s).setSkip !c)
  | jsr {b : Operand} (hskip : s.skip = false) (hi : i.form = .ext 0x01#6 b) :
      Tick i s ((pushWord (resolvedState i.form s).pc (resolvedState i.form s)).setPc (resolveExt 0x01#6 b s).1.value)
  | unimplemented {e : BitVec 6} {b : Operand} (hskip : s.skip = false) (hi : i.form = .ext e b) (he : e ≠ 0x01#6) :
      Tick i s (raiseUnimplemented (encExt e b.mode) (resolvedState i.form s))

theorem exec_of_skip {i : Instr} {s : State} (h : s.skip = true) :
    exec i s = .next ((resolvedState i.form s).setSkip false) := by
  cases hi : i.form with
  | base op a b => exact exec_base_of_skip h hi
  | ext e b => exact exec_ext_of_skip h hi

theorem exec_ext_of_not_skip {i : Instr} {e : BitVec 6} {b : Operand} {s : State} (h : s.skip = false)
    (hi : i.form = .ext e b) :
    exec i s = .next (effectOf e b.mode (resolveExt e b s).1.value (resolveExt e b s).2) := by
  rw [exec_ext hi, unlessSkipped_of_not_skip ((resolveExt_skip e b s).trans h)]

theorem exec_unimplemented_of_not_skip {i : Instr} {e : BitVec 6} {b : Operand} {s : State} (h : s.skip = false)
    (hi : i.form = .ext e b) (he : e ≠ 0x01#6) :
    exec i s = .next (raiseUnimplemented (encExt e b.mode) (resolveExt e b s).2) := by
  rw [exec_ext_of_not_skip h hi, effectOf, if_neg he]

/-- Every instruction completes, in one of the five ways. -/
theorem exec_tick (i : Instr) (s : State) : ∃ t, exec i s = .next t ∧ Tick i s t := by
  cases hskip : s.skip with
  | true => exact ⟨_, exec_of_skip hskip, .skipped hskip⟩
  | false =>
    cases hi : i.form with
    | base op a b =>
      have hstate : resolvedState i.form s = (resolveBase op a b s).after := by rw [hi, resolvedState]
      rw [exec_base_of_not_skip hskip hi, ← hstate]
      rcases aluOf_shape op (resolveBase op a b s).ra.value (resolveBase op a b s).rb.value (form_base_ne_zero hi) with
        ⟨hres, hov, -, v, halu⟩ | ⟨hres, hov, -, v, o, halu⟩ | ⟨-, -, hcond, c, halu⟩
      · exact ⟨_, congrArg _ (congrArg (commit · _ _) halu), .result hskip hi hres (.inl ⟨halu, hov, rfl⟩)⟩
      · exact ⟨_, congrArg _ (congrArg (commit · _ _) halu), .result hskip hi hres (.inr ⟨halu, hov⟩)⟩
      · have hcommit : commit (.condition c) (resolveBase op a b s).ra.loc (resolvedState i.form s) =
            (resolvedState i.form s).setSkip !c := by
          have hnone : (resolvedState i.form s).skip = false := (resolvedState_skip _ s).trans hskip
          cases c with
          | false => rfl
          | true => exact congrArg (resolvedState i.form s).setSkip hnone
        exact ⟨_, congrArg _ ((congrArg (commit · _ _) halu).trans hcommit), .condition hskip hi hcond halu⟩
    | ext e b =>
      have hstate : resolvedState i.form s = (resolveExt e b s).2 := by rw [hi, resolvedState]
      by_cases he : e = 0x01#6
      · subst he
        refine ⟨_, ?_, .jsr hskip hi⟩
        rw [hstate, ← extInstr_of_form hi]
        exact exec_jsr_of_not_skip hskip b
      · refine ⟨_, ?_, .unimplemented hskip hi he⟩
        rw [hstate, exec_unimplemented_of_not_skip hskip hi he]

theorem tick_of_exec {i : Instr} {s t : State} (h : exec i s = .next t) : Tick i s t := by
  obtain ⟨u, hu, htick⟩ := exec_tick i s
  cases hu.symm.trans h
  exact htick

end Sys2Proof.Machine
end

/-! ## Proofs: frames, the skip and the status output (40_execution_cycle.md, 43_conditional.md, 44_extended.md)

What each kind of instruction leaves unchanged, what a skipped tick does, and when `skip` and `unimpl` are set. -/

section
namespace Sys2Proof.Machine

/-! ### The execute stage, by the opcode (R134, R225) -/

/-- No opcode both gives a result and is a conditional. -/
theorem writesResult_of_isConditional {op : BitVec 4} (h : isConditional op = true) : writesResult op = false := by
  revert op
  decide

section
variable {i : Instr} {op : BitVec 4} {a b : Operand} {s t : State} (hi : i.form = .base op a b)
  (hexec : exec i s = .next t)
include hi hexec

/-- SET to XOR: a write-back at operand A's location, then `O`, kept where the opcode gives no overflow word. -/
theorem exec_of_writesResult (hskip : s.skip = false) (hres : writesResult op = true) :
    ∃ v o, t = (store (resolveBase op a b s).ra.loc v (resolveBase op a b s).after).setO o ∧
      (writesOverflow op = false → o = (store (resolveBase op a b s).ra.loc v (resolveBase op a b s).after).o) := by
  have hstate : resolvedState i.form s = (resolveBase op a b s).after := by rw [hi, resolvedState]
  cases tick_of_exec hexec with
  | @result _ _ _ v o _ hi' _ halu =>
    cases hi.symm.trans hi'
    rw [hstate] at halu ⊢
    refine ⟨v, o, rfl, fun hov => ?_⟩
    rcases halu with ⟨-, -, ho⟩ | ⟨-, hov'⟩
    · exact ho
    · cases hov.symm.trans hov'
  | skipped hs => cases hskip.symm.trans hs
  | condition _ hi' hcond =>
    cases hi.symm.trans hi'
    cases hres.symm.trans (writesResult_of_isConditional hcond)
  | jsr _ hi' => cases hi.symm.trans hi'
  | unimplemented _ hi' => cases hi.symm.trans hi'

/-- IFE to IFB: only `skip` may change after the resolution. -/
theorem exec_of_isConditional (hcond : isConditional op = true) :
    ∃ c, t = (resolveBase op a b s).after.setSkip c := by
  have hstate : resolvedState i.form s = (resolveBase op a b s).after := by rw [hi, resolvedState]
  cases tick_of_exec hexec with
  | condition => exact ⟨_, congrArg (State.setSkip · _) hstate⟩
  | skipped => exact ⟨false, congrArg (State.setSkip · false) hstate⟩
  | result _ hi' hres =>
    cases hi.symm.trans hi'
    cases hres.symm.trans (writesResult_of_isConditional hcond)
  | jsr _ hi' => cases hi.symm.trans hi'
  | unimplemented _ hi' => cases hi.symm.trans hi'

end

/-- Settles O23: the abnormal condition by the policy, in the state operand B's resolution leaves. -/
theorem unimplementedExtendedOpcodesFollowThePolicy :
    Obligations.UnimplementedExtendedOpcodesFollowThePolicy := by
  intro i e b s hi he hskip
  obtain ⟨-, -, -, -, -, -, -, -, hpolicy, -⟩ := resolveExt_fields e b s
  rw [exec_unimplemented_of_not_skip hskip hi he]
  exact ⟨fun hnop => by rw [raiseUnimplemented, hpolicy, hnop],
    fun hfault => by rw [raiseUnimplemented, hpolicy, hfault]⟩

/-! ### Frames (R132 to R136, R220, R225) -/

/-- Settles O26: the write-back changes the one location, the overflow word `O`, and all else is as resolved. -/
theorem writeBackFrame : Obligations.WriteBackFrame := by
  intro i op a b s t hi hres hskip hexec
  have hsurroundings := exec_sameSurroundings hexec
  have hword : i.form.word = encBase op a.mode b.mode := by rw [hi, Form.word]
  obtain ⟨hgp, hsp, ho, -, hfaulted, hunimpl, hopword, -⟩ := resolveBase_fields op a b s
  obtain ⟨v, o, rfl, hov⟩ := exec_of_writesResult hi hexec hskip hres
  refine ⟨fun q hl => ?_, fun hl => ?_, fun hl hnone => ?_, fun hl => ?_, fun x hl => ?_, ?_, ?_, ?_, ?_, hsurroundings⟩
  · exact (readReg_store_of_ne hl v _).trans (congrArg (Gp.get · q) hgp)
  · exact (readReg_store_of_ne hl v _).trans hsp
  · exact (hov hnone).trans ((readReg_store_of_ne hl v _).trans ho)
  · exact (readReg_store_of_ne hl v _).trans (resolveBase_pc hi s)
  · exact (memRead_store_of_ne hl v _).trans (memRead_resolveBase x op a b s)
  · simpa using hskip
  · simpa using hfaulted
  · simpa using hunimpl
  · simpa [hword] using hopword

/-- Settles O27: after the resolution only `skip` may change. -/
theorem conditionalFrame : Obligations.ConditionalFrame := by
  intro i op a b s t hi hcond hskip hexec
  have hsurroundings := exec_sameSurroundings hexec
  have hword : i.form.word = encBase op a.mode b.mode := by rw [hi, Form.word]
  obtain ⟨hgp, hsp, ho, hmem, hfaulted, hunimpl, hopword, -⟩ := resolveBase_fields op a b s
  obtain ⟨c, rfl⟩ := exec_of_isConditional hi hexec hcond
  exact ⟨hgp, hmem, ho, hsp, resolveBase_pc hi s, hfaulted, hunimpl, hopword.trans hword.symm, hsurroundings⟩

/-- Settles O28: after the resolution SP, the word at the new SP, and PC. -/
theorem jsrFrame : Obligations.JsrFrame := by
  intro b s t hskip hexec
  have hsurroundings := exec_sameSurroundings hexec
  obtain ⟨hgp, hsp, ho, hmem, hfaulted, hunimpl, hopword, -⟩ := resolveExt_fields 0x01#6 b s
  cases (exec_jsr_of_not_skip hskip b).symm.trans hexec
  refine ⟨hgp, ho, congrArg (· - 1#16) hsp, fun x hx => ?_, (resolveExt_skip _ b s).trans hskip, hfaulted, hunimpl,
    hopword, hsurroundings⟩
  rw [← hsp] at hx
  exact (memRead_memWrite_ne _ hx _).trans (congrArg (Memory.get · x.toNat) hmem)

/-- Settles O29: the abnormal condition leaves all of these as resolved. -/
theorem unimplementedExtendedFrame : Obligations.UnimplementedExtendedFrame := by
  intro i e b s t hi he hskip hexec
  have hsurroundings := exec_sameSurroundings hexec
  have hword : i.form.word = encExt e b.mode := by rw [hi, Form.word]
  obtain ⟨hgp, hsp, ho, hmem, hfaulted, -, hopword, -⟩ := resolveExt_fields e b s
  obtain ⟨hnop, -⟩ := unimplementedExtendedOpcodesFollowThePolicy i e b s hi he hskip
  have hfaultedNop : s.policy = .nop → t.faulted = s.faulted := fun hpolicy => by
    cases (hnop hpolicy).symm.trans hexec
    exact hfaulted
  cases (exec_unimplemented_of_not_skip hskip hi he).symm.trans hexec
  obtain ⟨kgp, ksp, kpc, ko, kskip, klatch, kmem, -⟩ := raiseUnimplemented_keeps (encExt e b.mode) (resolveExt e b s).2
  exact ⟨kgp.trans hgp, kmem.trans hmem, ko.trans ho, ksp.trans hsp, kpc.trans (resolveExt_pc hi s),
    kskip.trans ((resolveExt_skip e b s).trans hskip), hfaultedNop,
    (congrArg Latch.opword klatch).trans (hopword.trans hword.symm), hsurroundings⟩

/-- Settles O30: the state the resolution leaves, with `skip` cleared. -/
theorem skippedTickOnlyPassesTheInstruction : Obligations.SkippedTickOnlyPassesTheInstruction := by
  intro i s hskip
  have hexec := exec_of_skip (i := i) hskip
  obtain ⟨hgp, hsp, ho, hmem, hfaulted, hunimpl, hopword, -⟩ := resolvedState_fields i.form s
  exact ⟨_, hexec, resolvedState_pc i s, hsp, rfl, hgp, ho, hmem, hfaulted, hunimpl, hopword,
    exec_sameSurroundings hexec⟩

/-! ### What changes the registers, by the case of the tick (R30, R33, R34, R37) -/

section
variable {i : Instr} {s t : State} (h : Tick i s t)
include h

/-- A general-purpose register keeps its value, or is operand A of an executed opcode that gives a result. -/
theorem Tick.gp_get (q : GpReg) :
    t.gp.get q = s.gp.get q ∨
      s.skip = false ∧ ∃ op b, i.form = .base op (.reg q) b ∧ writesResult op = true := by
  obtain ⟨hgp, -⟩ := resolvedState_fields i.form s
  cases h with
  | @result op a b v o hskip hi hres =>
    by_cases hl : (resolveBase op a b s).ra.loc = .reg (.gp q)
    · have ha : a = .reg q := resolveBase_loc_eq_reg hl
      exact .inr ⟨hskip, op, b, ha ▸ hi, hres⟩
    · exact .inl ((readReg_store_of_ne hl v _).trans (congrArg (Gp.get · q) hgp))
  | skipped | condition | jsr | unimplemented => exact .inl (by simp)

/-- PC moves by the length of the instruction, or an executed instruction writes it. -/
theorem Tick.pc :
    t.pc = s.pc + instrLength i ∨ s.skip = false ∧ formWritesPc i.form = true := by
  cases h with
  | @result op a b v o hskip hi hres =>
    by_cases hl : (resolveBase op a b s).ra.loc = .reg .pc
    · have ha : a = .pc := resolveBase_loc_eq_reg hl
      exact .inr ⟨hskip, by simp [hi, formWritesPc, hres, ha]⟩
    · exact .inl ((readReg_store_of_ne hl v _).trans (resolvedState_pc i s))
  | jsr hskip hi => exact .inr ⟨hskip, by rw [hi]; rfl⟩
  | skipped | condition | unimplemented => exact .inl (by simp)

/-- `O` keeps its value, or an executed opcode gives an overflow word, or a result is stored to it. -/
theorem Tick.o :
    t.o = s.o ∨ s.skip = false ∧
      ∃ op a b, i.form = .base op a b ∧ (writesOverflow op = true ∨ writesResult op = true ∧ a = .o) := by
  obtain ⟨-, -, ho, -⟩ := resolvedState_fields i.form s
  cases h with
  | @result op a b v o hskip hi hres halu =>
    rcases halu with ⟨-, -, rfl⟩ | ⟨-, hov⟩
    · by_cases hl : (resolveBase op a b s).ra.loc = .reg .o
      · exact .inr ⟨hskip, op, a, b, hi, .inr ⟨hres, resolveBase_loc_eq_reg hl⟩⟩
      · exact .inl ((readReg_store_of_ne hl v _).trans ho)
    · exact .inr ⟨hskip, op, a, b, hi, .inl hov⟩
  | skipped | condition | jsr | unimplemented => exact .inl (by simp)

/-- A word of memory keeps its value, or is at operand A's location of an executed opcode that gives a result, or is the
slot JSR pushes to. -/
theorem Tick.memRead (x : Word) :
    memRead x t = memRead x s ∨ s.skip = false ∧
      ((∃ op a b, i.form = .base op a b ∧ writesResult op = true ∧ (resolveBase op a b s).ra.loc = .mem x) ∨
        ∃ b, i.form = .ext 0x01#6 b ∧ x = s.sp + stackShift b - 1#16) := by
  obtain ⟨-, hsp, -, hmem, -⟩ := resolvedState_fields i.form s
  have hread : Machine.memRead x (resolvedState i.form s) = Machine.memRead x s := congrArg (Memory.get · x.toNat) hmem
  cases h with
  | @result op a b v o hskip hi hres =>
    by_cases hl : (resolveBase op a b s).ra.loc = .mem x
    · exact .inr ⟨hskip, .inl ⟨op, a, b, hi, hres, hl⟩⟩
    · exact .inl ((memRead_store_of_ne hl v _).trans hread)
  | @jsr b hskip hi =>
    by_cases hx : x = s.sp + stackShift b - 1#16
    · exact .inr ⟨hskip, .inr ⟨b, hi, hx⟩⟩
    · have hslot : x ≠ (resolvedState i.form s).sp - 1#16 := by rwa [hsp, hi]
      exact .inl ((memRead_memWrite_ne _ hslot _).trans hread)
  | skipped | condition => exact .inl hread
  | unimplemented => exact .inl (by simp [Machine.memRead])

theorem Tick.opword : t.latch.opword = i.form.word := by
  cases h <;> simp

/-- The status output is 1 exactly after an executed unimplemented extended opcode (R141). -/
theorem Tick.unimpl_iff :
    t.unimpl = true ↔ s.skip = false ∧ ∃ e b, i.form = .ext e b ∧ e ≠ 0x01#6 := by
  cases h with
  | skipped hskip => simp [hskip]
  | result hskip hi => simp [hi]
  | condition hskip hi => simp [hi]
  | jsr hskip hi => simp [hi]
  | unimplemented hskip hi he => simp [hskip, hi, he]

end

/-- Settles O31: neither tick executes a write of PC. -/
theorem pcEndsAtTheSamePlaceSkippedOrNot : Obligations.PcEndsAtTheSamePlaceSkippedOrNot := by
  intro i s t u hpc ht hu
  have hlength : ∀ {s' t' : State}, exec i s' = .next t' → t'.pc = s'.pc + instrLength i := fun h =>
    (tick_of_exec h).pc.resolve_right fun ⟨_, hwrites⟩ => by cases hpc.symm.trans hwrites
  have htpc := hlength ht
  have hupc := hlength hu
  exact ⟨htpc, hupc.trans htpc.symm⟩

/-- Settles O44: by the case of the tick. -/
theorem unimplPulsesExactlyOnExecution : Obligations.UnimplPulsesExactlyOnExecution := fun _ _ _ h =>
  (tick_of_exec h).unimpl_iff

/-! ### The skip (R40, R200 to R203) -/

/-- An opcode that gives a result has no condition to fail. -/
theorem not_conditionFails_of_writesResult {op : BitVec 4} (h : writesResult op = true) (x y : Word) :
    ¬ conditionFails op x y := by
  rintro (⟨rfl, -⟩ | ⟨rfl, -⟩ | ⟨rfl, -⟩ | ⟨rfl, -⟩) <;> cases h

/-- The conditions of R200 to R203 fail exactly where the ALU's are false. -/
theorem conditionFails_iff {op : BitVec 4} (h : isConditional op = true) {x y : Word} {c : Bool}
    (halu : aluOf op x y = .condition c) : conditionFails op x y ↔ c = false := by
  have hop : op = 0xC#4 ∨ op = 0xD#4 ∨ op = 0xE#4 ∨ op = 0xF#4 := by
    clear halu
    revert op
    decide
  rcases hop with rfl | rfl | rfl | rfl <;>
  · cases halu
    simp [conditionFails, BitVec.le_def]

/-- After a tick `skip` is set exactly by an executed condition that fails. -/
theorem Tick.skip_iff {i : Instr} {s t : State} (h : Tick i s t) :
    t.skip = true ↔ s.skip = false ∧ ∃ op a b, i.form = .base op a b ∧
      conditionFails op (resolveBase op a b s).ra.value (resolveBase op a b s).rb.value := by
  cases h with
  | skipped hskip => simp [hskip]
  | result hskip hi hres => simp [hskip, hi, not_conditionFails_of_writesResult hres]
  | condition hskip hi hcond halu => simp [hskip, hi, conditionFails_iff hcond halu]
  | jsr hskip hi => simp [hskip, hi]
  | unimplemented hskip hi => simp [hskip, hi]

/-- Settles O43: by the case of the tick. -/
theorem skipIsSetExactlyByAFailedCondition : Obligations.SkipIsSetExactlyByAFailedCondition := fun _ _ _ h =>
  (tick_of_exec h).skip_iff

end Sys2Proof.Machine
end

/-! ## Proofs: the invariant and the whole machine (10_state.md, 60_exceptions.md, 70_reset_and_hazards.md)

Every step takes one move, the Engine's turn where none is due. What a step can answer is said once; the invariant, the
stops and the causes of a changed register or memory word follow from it and from the cases of a tick. -/

section
namespace Sys2Proof.Machine

/-! ### What a step can answer (R5, R6, R278) -/

/-- Every step takes the move due, the Engine's turn where none is. -/
theorem step_eq (s : State) : step s = takeMove (s.moves.headD .tick) (s.setMoves s.moves.tail) := by
  cases hmoves : s.moves with
  | nil =>
    have hself : s.setMoves [] = s := by rw [← hmoves]; rfl
    rw [step, hmoves, List.headD_nil, List.tail_nil, hself, takeMove]
  | cons m ms => exact step_of_moves hmoves

/-- The move due is not the Engine's: it stands in the list. -/
theorem headD_tick_eq_iff {s : State} {m : Move} (hm : m ≠ .tick) :
    s.moves.headD .tick = m ↔ ∃ ms, s.moves = m :: ms := by
  cases s.moves with
  | nil => simp [hm.symm]
  | cons m' ms => simp

theorem engineDue_iff (s : State) : s.engineDue ↔ s.moves.headD .tick = .tick := by
  unfold State.engineDue
  cases s.moves <;> simp

theorem engineTurn_of_tickEnabled {s : State} (h : s.tickEnabled) : engineTurn s = exec (fetchInstr s) s := by
  obtain ⟨hrunning, hok⟩ := h
  rw [engineTurn, hrunning, hok]

/-- Settles O6: an enabled Engine's turn is `exec` of the instruction that the words at PC decode to. -/
theorem stepRunsTheDecodedInstruction : Obligations.StepRunsTheDecodedInstruction := by
  intro s i more hen hdecode
  obtain rfl : fetchInstr s = i := by
    rw [decode_cons_of_le ((nextWords_le_two _).trans (by simp))] at hdecode
    exact congrArg Prod.fst (Except.ok.inj hdecode)
  exact ⟨fun hmoves => step_of_tickEnabled hmoves hen, fun ms hmoves =>
    (step_of_moves hmoves).trans (engineTurn_of_tickEnabled (s := s.setMoves ms) hen)⟩

/-- All a step that answers a next state can be: a host move, a passing turn of a Paused Engine, or a tick. -/
theorem step_next_cases {s t : State} (h : step s = .next t) :
    (∃ m, m ≠ .tick ∧ s.moves.headD .tick = m ∧ takeMove m (s.setMoves s.moves.tail) = .next t) ∨
    (s.faulted = none ∧ s.run = .paused ∧ t = s.setMoves s.moves.tail) ∨
    (s.engineDue ∧ s.tickEnabled ∧ exec (fetchInstr s) (s.setMoves s.moves.tail) = .next t) := by
  rw [step_eq] at h
  by_cases hm : s.moves.headD .tick = .tick
  · rw [hm] at h
    rcases engineTurn_cases (s.setMoves s.moves.tail) with ⟨w, -, hturn⟩ | ⟨hok, hpaused, hturn⟩ | ⟨hen, hturn⟩
    · cases hturn.symm.trans h
    · cases hturn.symm.trans h
      exact .inr (.inl ⟨hok, hpaused, rfl⟩)
    · exact .inr (.inr ⟨(engineDue_iff s).mpr hm, hen, hturn.symm.trans h⟩)
  · exact .inl ⟨_, hm, rfl, h⟩

/-- A step consumes the move due and keeps the policy. -/
theorem step_moves_policy {s t : State} (h : step s = .next t) : t.moves = s.moves.tail ∧ t.policy = s.policy := by
  rcases step_next_cases h with ⟨m, hm, -, htake⟩ | ⟨-, -, rfl⟩ | ⟨-, -, hexec⟩
  · obtain ⟨r, mem, rfl⟩ := takeMove_of_ne_tick hm htake
    exact ⟨rfl, rfl⟩
  · exact ⟨rfl, rfl⟩
  · obtain ⟨-, hpolicy, hmoves, -⟩ := exec_sameSurroundings hexec
    exact ⟨hmoves, hpolicy⟩

/-! ### The invariant (R41, R43, R60, R225, R240) -/

/-- Every tick keeps memory canonical. -/
theorem Tick.mem_wf {i : Instr} {s t : State} (h : Tick i s t) (hwf : s.mem.wf = true) : t.mem.wf = true := by
  have hresolved : (resolvedState i.form s).mem.wf = true := by simpa using hwf
  cases h with
  | result => exact store_wf hresolved _ _
  | jsr => exact memWrite_wf (s := (resolvedState i.form s).setSp _) hresolved _ _
  | skipped | condition => exact hresolved
  | unimplemented => simpa using hwf

/-- A tick leaves `faulted` alone, or records the word of an unimplemented extended opcode under the fault policy. -/
theorem Tick.faulted {i : Instr} {s t : State} (h : Tick i s t) :
    t.faulted = s.faulted ∨ s.policy = .fault ∧ t.unimpl = true ∧
      ∃ e m, e ≠ 0x01#6 ∧ t.faulted = some (encExt e m) := by
  obtain ⟨-, -, -, -, hfaulted, -, -, -, hpolicy, -⟩ := resolvedState_fields i.form s
  cases h with
  | @unimplemented e b hskip hi he =>
    rcases raiseUnimplemented_cases (encExt e b.mode) (resolvedState i.form s) with ⟨-, h⟩ | ⟨hfault, h⟩ <;> rw [h]
    · exact .inl hfaulted
    · exact .inr ⟨hpolicy.symm.trans hfault, rfl, e, b.mode, he, rfl⟩
  | skipped | result | condition | jsr => exact .inl (by simp)

/-- An instruction that runs in a state without a fault keeps the invariant. -/
theorem exec_keeps_inv {i : Instr} {s t : State} (hinv : s.Inv) (hok : s.faulted = none) (h : exec i s = .next t) :
    t.Inv := by
  obtain ⟨-, hpolicy, -, hstep, hextraA, hextraB⟩ := exec_sameSurroundings h
  have htick := tick_of_exec h
  obtain ⟨hstep0, hextraA0, hextraB0⟩ := hinv.latch_unused
  have hlatch := And.intro (hstep.trans hstep0) (And.intro (hextraA.trans hextraA0) (hextraB.trans hextraB0))
  rcases htick.faulted with hfaulted | ⟨hfault, hpulsed, e, m, he, hfaulted⟩
  · have hnone := hfaulted.trans hok
    exact ⟨htick.mem_wf hinv.mem_canonical, hlatch, fun _ => hnone, fun w hw => (by cases hnone.symm.trans hw),
      fun hne => absurd hnone hne⟩
  · refine ⟨htick.mem_wf hinv.mem_canonical, hlatch, fun hnop => ?_, fun w hw => ?_, fun _ => hpulsed⟩
    · cases (hnop.symm.trans hpolicy).trans hfault
    · cases hfaulted.symm.trans hw
      rw [encExt_eq_encBase, bits_encBase_op, bits_encBase_a]
      exact ⟨rfl, he⟩

/-- A write of the run state, of a canonical memory or of the moves due keeps the invariant. -/
theorem State.Inv.setRun {s : State} (h : s.Inv) (r : RunState) : (s.setRun r).Inv :=
  ⟨h.mem_canonical, h.latch_unused, h.nop_never_faults, h.faulted_word, h.faulted_pulsed⟩

theorem State.Inv.setMem {s : State} (h : s.Inv) {m : Memory} (hm : m.wf = true) : (s.setMem m).Inv :=
  ⟨hm, h.latch_unused, h.nop_never_faults, h.faulted_word, h.faulted_pulsed⟩

theorem State.Inv.setMoves {s : State} (h : s.Inv) (ms : List Move) : (s.setMoves ms).Inv :=
  ⟨h.mem_canonical, h.latch_unused, h.nop_never_faults, h.faulted_word, h.faulted_pulsed⟩

theorem hostMove_keeps_inv {m : Move} {s t : State} (hm : m ≠ .tick) (hinv : s.Inv) (h : takeMove m s = .next t) :
    t.Inv := by
  cases m with
  | tick => exact absurd rfl hm
  | start => cases h; exact hinv.setRun _
  | stop => cases h; exact hinv.setRun _
  | togglePause => cases h; rw [hostTogglePause_eq]; exact hinv.setRun _
  | loadImage words n =>
    rcases hostLoadImage_cases words n s with ⟨-, hl⟩ | ⟨-, -, hl⟩ | ⟨-, -, -, hl⟩ | ⟨-, hn, rfl, hl⟩
    case inr.inr.inr =>
      cases hl.symm.trans h
      exact hinv.setMem (Memory.wf_image words hn)
    all_goals cases hl.symm.trans h

/-- Settles O32: by what the step is. -/
theorem everyStepKeepsTheInvariant : Obligations.EveryStepKeepsTheInvariant := by
  intro s t hinv hstep
  have hinv' := hinv.setMoves s.moves.tail
  rcases step_next_cases hstep with ⟨m, hm, -, htake⟩ | ⟨-, -, rfl⟩ | ⟨-, ⟨-, hok⟩, hexec⟩
  · exact hostMove_keeps_inv hm hinv' htake
  · exact hinv'
  · exact exec_keeps_inv hinv' hok hexec

/-- Settles O33: memory is empty, the latch is 0 and nothing has faulted. -/
theorem resetMeetsTheInvariant : Obligations.ResetMeetsTheInvariant :=
  ⟨rfl, ⟨rfl, rfl, rfl⟩, fun _ => rfl, fun _ hw => (by cases hw), fun hne => absurd rfl hne⟩

/-- Settles O51: each field's value at reset. -/
theorem stateAfterConstruction : Obligations.StateAfterConstruction :=
  ⟨fun q => by cases q <;> rfl, rfl, rfl, rfl, fun _ => rfl, rfl, rfl, rfl, rfl, rfl, rfl, rfl⟩

/-! ### The stops: faults and refusals (R43, R67, R240, R279) -/

/-- An instruction neither faults nor is refused. -/
theorem exec_ne_fault (i : Instr) (s : State) (f : Fault) : exec i s ≠ .fault f := by
  obtain ⟨t, h, -⟩ := exec_tick i s
  simp [h]

theorem exec_ne_refused (i : Instr) (s : State) (why : Refusal) : exec i s ≠ .refused why := by
  obtain ⟨t, h, -⟩ := exec_tick i s
  simp [h]

theorem engineTurn_fault_iff (s : State) (f : Fault) :
    engineTurn s = .fault f ↔ ∃ w, f = .unimplemented w ∧ s.faulted = some w := by
  rcases engineTurn_cases s with ⟨w, hw, hturn⟩ | ⟨hok, -, hturn⟩ | ⟨⟨-, hok⟩, hturn⟩ <;> rw [hturn]
  · simp [hw, eq_comm]
  · simp [hok]
  · simp [hok, exec_ne_fault]

theorem engineTurn_ne_refused (s : State) (why : Refusal) : engineTurn s ≠ .refused why := by
  rcases engineTurn_cases s with ⟨w, -, hturn⟩ | ⟨-, -, hturn⟩ | ⟨-, hturn⟩ <;> rw [hturn]
  · simp
  · simp
  · exact exec_ne_refused _ s why

/-- The reasons for which a call of LoadImage is refused exclude each other. -/
theorem hostLoadImage_refused_iff (words : List Word) (n : Nat) (s : State) (why : Refusal) :
    hostLoadImage words n s = .refused why ↔
      s.run = .running ∧ why = .imageWhileRunning ∨
      s.run = .paused ∧ 65536 < n ∧ why = .imageTooLong ∨
      s.run = .paused ∧ n ≤ 65536 ∧ n ≠ words.length ∧ why = .imageLengthMismatch := by
  have hcases := hostLoadImage_cases words n s
  simp only [Config.memWords] at hcases
  rcases hcases with ⟨hrun, hl⟩ | ⟨hrun, hn, hl⟩ | ⟨hrun, hn, hne, hl⟩ | ⟨hrun, hn, rfl, hl⟩
  · simp [hl, hrun, eq_comm]
  · simp [hl, hrun, hn, hn.not_ge, eq_comm]
  · simp [hl, hrun, hn, hn.not_gt, hne, eq_comm]
  · simp [hl, hrun, hn.not_gt]

theorem takeMove_fault_iff (m : Move) (s : State) (f : Fault) :
    takeMove m s = .fault f ↔ m = .tick ∧ ∃ w, f = .unimplemented w ∧ s.faulted = some w := by
  cases m with
  | tick => simp [takeMove, engineTurn_fault_iff]
  | loadImage words n =>
    rcases hostLoadImage_cases words n s with ⟨-, hl⟩ | ⟨-, -, hl⟩ | ⟨-, -, -, hl⟩ | ⟨-, -, -, hl⟩ <;>
      simp [takeMove, hl]
  | start | stop | togglePause => simp [takeMove]

theorem takeMove_refused_iff (m : Move) (s : State) (why : Refusal) :
    takeMove m s = .refused why ↔ ∃ words n, m = .loadImage words n ∧ hostLoadImage words n s = .refused why := by
  cases m with
  | tick => simp [takeMove, engineTurn_ne_refused]
  | loadImage words n => simp [takeMove]
  | start | stop | togglePause => simp [takeMove]

/-- Settles O35: the move due is the Engine's turn, and its state is faulted. -/
theorem onlyTheFaultedEngineFaults : Obligations.OnlyTheFaultedEngineFaults := by
  intro s f
  rw [step_eq, takeMove_fault_iff, engineDue_iff, setMoves_faulted]
  exact ⟨fun ⟨hdue, w, hf, hw⟩ => ⟨w, hf, hw, hdue⟩, fun ⟨w, hf, hw, hdue⟩ => ⟨hdue, w, hf, hw⟩⟩

/-- Settles O36: the move due is an image load, and it is refused. -/
theorem onlyBrokenImageLoadsAreRefused : Obligations.OnlyBrokenImageLoadsAreRefused := by
  intro s why
  simp only [step_eq, takeMove_refused_iff, hostLoadImage_refused_iff, setMoves_run,
    headD_tick_eq_iff (s := s) (m := .loadImage _ _) (by simp)]
  exact ⟨fun ⟨words, n, ⟨ms, hms⟩, hwhy⟩ => ⟨words, n, ms, hms, hwhy⟩,
    fun ⟨words, n, ms, hms, hwhy⟩ => ⟨words, n, ⟨ms, hms⟩, hwhy⟩⟩

/-- Without a fault and without an image load due, a step answers a next state. -/
theorem step_answers {s : State} (hok : s.faulted = none) (hload : ∀ ws k, Move.loadImage ws k ∉ s.moves) :
    ∃ t, step s = .next t := by
  cases hstep : step s with
  | next t => exact ⟨t, rfl⟩
  | fault f =>
    obtain ⟨w, -, hw, -⟩ := (onlyTheFaultedEngineFaults s f).mp hstep
    cases hok.symm.trans hw
  | refused why =>
    obtain ⟨words, n, ms, hmoves, -⟩ := (onlyBrokenImageLoadsAreRefused s why).mp hstep
    exact absurd (hmoves ▸ List.mem_cons_self) (hload words n)

/-- Settles O34: by induction on the number of steps, the invariant, the policy and the absence of image loads being
kept. -/
theorem nopRunsNeverStop : Obligations.NopRunsNeverStop := by
  intro n
  induction n with
  | zero => exact fun s _ _ _ => ⟨s, rfl⟩
  | succ n ih =>
    intro s hinv hnop hload
    obtain ⟨t, hstep⟩ := step_answers (hinv.nop_never_faults hnop) hload
    obtain ⟨hmoves, hpolicy⟩ := step_moves_policy hstep
    have hloadt : ∀ ws k, Move.loadImage ws k ∉ t.moves := fun ws k hmem =>
      hload ws k (List.mem_of_mem_tail (hmoves ▸ hmem))
    obtain ⟨u, hu⟩ := ih t (everyStepKeepsTheInvariant s t hinv hstep) (hpolicy.trans hnop) hloadt
    exact ⟨u, (run_succ_of_step hstep n).trans hu⟩

/-! ### What changes the registers and memory (R30, R33, R34, R37, R43, R74, R77) -/

/-- Of the host's moves only an image load writes memory (R77). -/
theorem mem_of_takeMove {m : Move} {s t : State} (hm : m ≠ .tick) (h : takeMove m s = .next t) :
    (∃ words n, m = .loadImage words n) ∨ t.mem = s.mem := by
  cases m with
  | tick => exact absurd rfl hm
  | loadImage words n => exact .inl ⟨words, n, rfl⟩
  | start | stop => cases h; exact .inr rfl
  | togglePause => cases h; exact .inr (by rw [hostTogglePause_eq, setRun_mem])

/-- A step keeps every register, `faulted`, `skip` and, but for an image load, memory; or it is a tick. -/
theorem step_keeps_or_ticks {s t : State} (h : step s = .next t) :
    (t.gp = s.gp ∧ t.sp = s.sp ∧ t.pc = s.pc ∧ t.o = s.o ∧ t.skip = s.skip ∧ t.faulted = s.faulted ∧
      (s.imageLoadDue ∨ t.mem = s.mem)) ∨
    (s.engineDue ∧ s.tickEnabled ∧ Tick (fetchInstr s) (s.setMoves s.moves.tail) t) := by
  rcases step_next_cases h with ⟨m, hm, hhead, htake⟩ | ⟨-, -, rfl⟩ | ⟨hdue, hen, hexec⟩
  · have hmem : s.imageLoadDue ∨ t.mem = s.mem := by
      refine (mem_of_takeMove hm htake).imp_left fun ⟨words, n, hload⟩ => ?_
      obtain ⟨ms, hms⟩ := (headD_tick_eq_iff hm).mp hhead
      exact ⟨words, n, ms, hload ▸ hms⟩
    obtain ⟨r, mem, rfl⟩ := takeMove_of_ne_tick hm htake
    exact .inl ⟨rfl, rfl, rfl, rfl, rfl, rfl, hmem⟩
  · exact .inl ⟨rfl, rfl, rfl, rfl, rfl, rfl, .inr rfl⟩
  · exact .inr ⟨hdue, hen, tick_of_exec hexec⟩

/-- Settles O37: a faulted Engine has no tick. -/
theorem faultedIsTerminal : Obligations.FaultedIsTerminal := by
  intro s t w hw hstep
  rcases step_keeps_or_ticks hstep with ⟨hgp, hsp, hpc, ho, hskip, hfaulted, -⟩ | ⟨-, ⟨-, hok⟩, -⟩
  · exact ⟨hfaulted.trans hw, hgp, hsp, hpc, ho, hskip⟩
  · cases hok.symm.trans hw

/-- Settles O38: by the tick that changed the register. -/
theorem onlyWriteBackChangesGeneralRegisters : Obligations.OnlyWriteBackChangesGeneralRegisters := by
  intro s t q hstep hne
  rcases step_keeps_or_ticks hstep with ⟨hgp, -⟩ | ⟨hdue, hen, htick⟩
  · exact absurd (congrArg (Gp.get · q) hgp) hne
  · exact ⟨hdue, hen, (htick.gp_get q).resolve_left hne⟩

/-- Settles O39: by the tick that changed PC. -/
theorem onlyTicksMovePc : Obligations.OnlyTicksMovePc := by
  intro s t hstep hne
  rcases step_keeps_or_ticks hstep with ⟨-, -, hpc, -⟩ | ⟨hdue, hen, htick⟩
  · exact absurd hpc hne
  · exact ⟨hdue, hen, htick.pc⟩

/-- Settles O40: by the tick that changed `O`. -/
theorem onlyOverflowOpcodesOrItsModeChangeO : Obligations.OnlyOverflowOpcodesOrItsModeChangeO := by
  intro s t hstep hne
  rcases step_keeps_or_ticks hstep with ⟨-, -, -, ho, -⟩ | ⟨hdue, hen, htick⟩
  · exact absurd ho hne
  · exact ⟨hdue, hen, htick.o.resolve_left hne⟩

/-- Operand A's location does not depend on the moves due. -/
theorem resolveBase_setMoves_loc (op : BitVec 4) (a b : Operand) (s : State) (ms : List Move) :
    (resolveBase op a b (s.setMoves ms)).ra.loc = (resolveBase op a b s).ra.loc := by
  cases a <;> rfl

/-- Settles O42: by the tick that changed the word, whose locations are those of the state the step starts from. -/
theorem onlyOneStoreOrAnImageLoadChangesMemory : Obligations.OnlyOneStoreOrAnImageLoadChangesMemory := by
  intro s t x hstep hne
  rcases step_keeps_or_ticks hstep with ⟨-, -, -, -, -, -, hload | hmem⟩ | ⟨hdue, hen, htick⟩
  · exact .inl hload
  · exact absurd (congrArg (Memory.get · x.toNat) hmem) hne
  · have hchange := (htick.memRead x).resolve_left hne
    simp only [resolveBase_setMoves_loc] at hchange
    exact .inr ⟨hdue, hen, hchange⟩

/-! ### The instruction a tick runs (R33, R41, R65, R90) -/

/-- The Engine's turn in an enabled state is a tick of the instruction at PC. -/
theorem tick_of_step {s t : State} (hdue : s.engineDue) (hen : s.tickEnabled) (h : step s = .next t) :
    Tick (fetchInstr s) (s.setMoves s.moves.tail) t := by
  rw [step_eq, (engineDue_iff s).mp hdue] at h
  exact tick_of_exec ((engineTurn_of_tickEnabled (s := s.setMoves s.moves.tail) hen).symm.trans h)

/-- Settles O7: the instruction fetched encodes to the words it was decoded from, and a tick latches the first. -/
theorem instructionWordsAreTheWordsAtPc : Obligations.InstructionWordsAreTheWordsAtPc := by
  intro s
  refine ⟨?_, fun t hen hdue hstep => (tick_of_step hdue hen hstep).opword.trans (word_decodeAt _ _ _)⟩
  have hwords : [memRead s.pc s, memRead (s.pc + 1#16) s, memRead (s.pc + 2#16) s] =
      (List.range 3).map fun k => memRead (s.pc + BitVec.ofNat 16 k) s := by
    simp [List.range_succ]
  rw [fetchInstr, (encodeOfDecodeIsTheWords _ _ _).2, hwords, ← List.map_take, List.take_range, List.length_map,
    List.length_range]

end Sys2Proof.Machine
end

/-! ## Proofs: the shifts, and that no bit of a result is lost (41_set_arith.md, 42_shift_logic.md)

R180 and R181 in terms of the word operations, then the result and `O` together as the exact sum, difference, product,
quotient and shift (R159, R179). -/

section
namespace Sys2Proof.Machine

/-! ### SHL and SHR (R180, R181) -/

theorem aluShl_eq (a b : Word) :
    aluShl a b = .withOverflow (a <<< b.toNat) (w16 ((a.toNat <<< b.toNat) >>> 16)) := by
  have hres : w16 (a.toNat * 2 ^ b.toNat) = a <<< b.toNat := by
    refine BitVec.eq_of_toNat_eq ?_
    rw [w16, BitVec.toNat_ofNat, BitVec.toNat_shiftLeft, Nat.shiftLeft_eq]
  rw [aluShl, hres, Nat.shiftRight_eq_div_pow, Nat.shiftLeft_eq]

theorem aluShr_eq (a b : Word) :
    aluShr a b = .withOverflow (a >>> b.toNat) (w16 ((a.toNat <<< 16) >>> b.toNat)) := by
  have hres : w16 (a.toNat / 2 ^ b.toNat) = a >>> b.toNat := by
    refine BitVec.eq_of_toNat_eq ?_
    rw [w16, BitVec.toNat_ofNat, BitVec.toNat_ushiftRight, Nat.shiftRight_eq_div_pow,
      Nat.mod_eq_of_lt ((Nat.div_le_self _ _).trans_lt a.isLt)]
  rw [aluShr, hres, Nat.shiftRight_eq_div_pow, Nat.shiftLeft_eq]

/-- Settles O18: the shifted word is the exact product by the power of two modulo 65536. -/
theorem shlResultAndOverflow : Obligations.ShlResultAndOverflow := fun _ _ _ h =>
  exec_of_alu_withOverflow h rfl (aluShl_eq _ _)

/-- Settles O19: the logical shift is the exact quotient by the power of two. -/
theorem shrResultAndOverflow : Obligations.ShrResultAndOverflow := fun _ _ _ h =>
  exec_of_alu_withOverflow h rfl (aluShr_eq _ _)

/-! ### What a location holds after the write-back (R135, R136) -/

/-- A location that has storage holds what was stored to it. -/
theorem readLoc_store {s : State} (hwf : s.mem.wf = true) {l : Loc} {v x : Word}
    (h : readLoc (store l v s) l = some x) : x = v := by
  cases l with
  | reg r => exact (Option.some.inj h).symm.trans (readReg_writeReg_same r v s)
  | mem a => exact (Option.some.inj h).symm.trans ((memRead_memWrite hwf a v a).trans (if_pos rfl))
  | none => cases h

theorem readLoc_setO_ne {l : Loc} (hl : l ≠ .reg .o) (v : Word) (s : State) :
    readLoc (s.setO v) l = readLoc s l := by
  cases l with
  | reg r => exact congrArg some (readReg_setO_ne (fun hr => hl (congrArg Loc.reg hr)) v s)
  | mem a => rfl
  | none => rfl

theorem resolveBase_wf {op : BitVec 4} {a b : Operand} {s : State} (hwf : s.mem.wf = true) :
    (resolveBase op a b s).after.mem.wf = true := by
  rwa [resolveBase_mem]

/-- After a write-back and an overflow word, the location and `O` hold them, unless the location is `O`. -/
theorem stored_of_exec {i : Instr} {r s t : State} {l : Loc} {v o x : Word}
    (hresult : exec i s = .next ((store l v r).setO o)) (hexec : exec i s = .next t) (hwf : r.mem.wf = true)
    (hl : l ≠ .reg .o) (hread : readLoc t l = some x) : x = v ∧ t.o = o := by
  cases hresult.symm.trans hexec
  rw [readLoc_setO_ne hl] at hread
  exact ⟨readLoc_store hwf hread, rfl⟩

/-! ### Sums, differences and products (R161 to R163) -/

theorem sum_exact (x y : Word) :
    (x + y).toNat + 65536 * (if x.toNat + y.toNat ≥ 65536 then 0x0001#16 else 0x0000#16 : Word).toNat =
      x.toNat + y.toNat := by
  have hx := x.isLt
  have hy := y.isLt
  rw [BitVec.toNat_add]
  split <;> simp only [BitVec.toNat_ofNat] <;> omega

theorem difference_exact (x y : Word) :
    ((x - y).toNat : Int) - (if (if x < y then 0xFFFF#16 else 0x0000#16 : Word) = 0#16 then 0 else 65536) =
      (x.toNat : Int) - y.toNat := by
  have hx := x.isLt
  have hy := y.isLt
  rw [BitVec.toNat_sub]
  by_cases h : x < y
  · have hlt : x.toNat < y.toNat := h
    rw [if_pos h, if_neg (by decide)]
    omega
  · have hle : ¬ x.toNat < y.toNat := h
    rw [if_neg h, if_pos rfl]
    omega

theorem product_exact (x y : Word) :
    (x * y).toNat + 65536 * (w16 ((x.toNat * y.toNat) >>> 16)).toNat = x.toNat * y.toNat := by
  have hlt : x.toNat * y.toNat < 65536 * 65536 := Nat.mul_lt_mul'' x.isLt y.isLt
  rw [BitVec.toNat_mul, w16, BitVec.toNat_ofNat, Nat.shiftRight_eq_div_pow]
  omega

/-- Settles O24: the exact arithmetic of each opcode's result statement. -/
theorem sumDifferenceProductAreExact : Obligations.SumDifferenceProductAreExact := by
  intro a b s t v hwf hskip
  refine ⟨fun hexec hl hread => ?_, fun hexec hl hread => ?_, fun hexec hl hread => ?_⟩
  · obtain ⟨rfl, ho⟩ := stored_of_exec (addResultAndCarry a b s hskip) hexec (resolveBase_wf hwf) hl hread
    rw [ho]
    exact sum_exact _ _
  · obtain ⟨rfl, ho⟩ := stored_of_exec (subResultAndBorrow a b s hskip) hexec (resolveBase_wf hwf) hl hread
    rw [ho]
    exact difference_exact _ _
  · obtain ⟨rfl, ho⟩ := stored_of_exec (mulResultAndHighWord a b s hskip) hexec (resolveBase_wf hwf) hl hread
    rw [ho]
    exact product_exact _ _

/-! ### Quotients, right shifts and remainders (R164, R165, R181) -/

/-- A quotient and its 16 fractional bits are the quotient of the number shifted up by 16. -/
theorem quotient_with_fraction (n d : Nat) : 65536 * (n / d) + n * 65536 / d % 65536 = 65536 * n / d := by
  have hhigh : n * 65536 / d / 65536 = n / d := by
    rw [Nat.div_div_eq_div_mul, Nat.mul_div_mul_right _ _ (by decide)]
  rw [← hhigh, Nat.div_add_mod, Nat.mul_comm]

theorem quotient_exact (x y : Word) :
    65536 * (x / y).toNat + (w16 ((x.toNat <<< 16) / y.toNat)).toNat = 65536 * x.toNat / y.toNat := by
  rw [BitVec.toNat_udiv, w16, BitVec.toNat_ofNat, Nat.shiftLeft_eq]
  exact quotient_with_fraction _ _

theorem shift_exact (x : Word) (k : Nat) :
    65536 * (x >>> k).toNat + (w16 ((x.toNat <<< 16) >>> k)).toNat = 65536 * x.toNat / 2 ^ k := by
  rw [BitVec.toNat_ushiftRight, w16, BitVec.toNat_ofNat, Nat.shiftLeft_eq, Nat.shiftRight_eq_div_pow,
    Nat.shiftRight_eq_div_pow]
  exact quotient_with_fraction _ _

theorem toNat_pos_of_ne_zero {x : Word} (h : x ≠ 0#16) : 0 < x.toNat :=
  Nat.pos_of_ne_zero fun hz => h (BitVec.eq_of_toNat_eq hz)

/-- Settles O25: the exact arithmetic of each opcode's result statement, a floor being between its two bounds. -/
theorem quotientsAndRemaindersAreExact : Obligations.QuotientsAndRemaindersAreExact := by
  intro a b s t v hwf hskip
  refine ⟨fun hexec hl hread hb => ?_, fun hexec hl hread => ?_, fun hexec hread hb => ?_⟩
  · obtain ⟨-, hresult⟩ := divResultAndFraction a b s hskip
    obtain ⟨rfl, ho⟩ := stored_of_exec (hresult hb) hexec (resolveBase_wf hwf) hl hread
    rw [ho, quotient_exact]
    exact ⟨Nat.div_mul_le_self _ _, (Nat.div_lt_iff_lt_mul (toNat_pos_of_ne_zero hb)).mp (Nat.lt_succ_self _)⟩
  · obtain ⟨rfl, ho⟩ := stored_of_exec (shrResultAndOverflow a b s hskip) hexec (resolveBase_wf hwf) hl hread
    rw [ho]
    exact shift_exact _ _
  · obtain ⟨-, hresult⟩ := modResult a b s hskip
    cases (hresult hb).symm.trans hexec
    obtain rfl := readLoc_store (resolveBase_wf hwf) hread
    rw [BitVec.toNat_umod]
    exact ⟨Nat.mod_lt _ (toNat_pos_of_ne_zero hb), _, (Nat.div_add_mod' _ _).symm⟩

end Sys2Proof.Machine
end

/-! ## Proofs: what no instruction reads (10_state.md sections 4 and 5)

Two runs of one tick: another decode latch and status output, and another `O` where no operand is in mode 0x1D. Each
operation of a tick commutes with the write of the field that it does not read. -/

section
namespace Sys2Proof.Machine

/-! ### The latch and the status output (R41, R141) -/

theorem resolve_setLatch (x : Operand) (s : State) (l : Latch) :
    resolve x (s.setLatch l) = ((resolve x s).1, (resolve x s).2.setLatch l) := by
  cases x <;> rfl

theorem store_setLatch (loc : Loc) (v : Word) (s : State) (l : Latch) :
    store loc v (s.setLatch l) = (store loc v s).setLatch l := by
  cases loc with
  | reg r => cases r <;> rfl
  | mem a => rfl
  | none => rfl

theorem commit_setLatch {op : BitVec 4} (hop : op ≠ 0#4) (x y : Word) (loc : Loc) (s : State) (l : Latch) :
    commit (aluOf op x y) loc (s.setLatch l) = (commit (aluOf op x y) loc s).setLatch l := by
  rcases aluOf_shape op x y hop with ⟨-, -, -, v, h⟩ | ⟨-, -, -, v, o, h⟩ | ⟨-, -, -, c, h⟩ <;> rw [h]
  · exact store_setLatch loc v s l
  · exact congrArg (State.setO · o) (store_setLatch loc v s l)
  · cases c <;> rfl

theorem raiseUnimplemented_setLatch (w : Word) (s : State) (l : Latch) :
    raiseUnimplemented w (s.setLatch l) = (raiseUnimplemented w s).setLatch l := by
  unfold raiseUnimplemented
  rw [setLatch_policy]
  cases s.policy <;> rfl

theorem effectOf_setLatch (e m : BitVec 6) (v : Word) (s : State) (l : Latch) :
    effectOf e m v (s.setLatch l) = (effectOf e m v s).setLatch l := by
  unfold effectOf
  split
  · rfl
  · exact raiseUnimplemented_setLatch _ s l

theorem unlessSkipped_setLatch {f : State → State} {s : State} {l : Latch}
    (hf : f (s.setLatch l) = (f s).setLatch l) :
    unlessSkipped f (s.setLatch l) = (unlessSkipped f s).setLatch l := by
  unfold unlessSkipped
  rw [setLatch_skip, hf]
  split <;> rfl

/-- The fetch writes the latched word and the status output, whatever they held. -/
theorem fetched_setLatch_setUnimpl (w : Word) (s : State) (l : Latch) (u : Bool) :
    fetched w ((s.setLatch l).setUnimpl u) = (fetched w s).setLatch { l with opword := w } := rfl

/-- Settles O45: the latch the second run fetches is carried through the tick. -/
theorem latchAndStatusOutputAreNeverRead : Obligations.LatchAndStatusOutputAreNeverRead := by
  intro i s t l u hexec
  rw [(tick_of_exec hexec).opword]
  cases hi : i.form with
  | base op a b =>
    cases (exec_base hi s).symm.trans hexec
    rw [exec_base hi]
    simp only [resolveBase, fetched_setLatch_setUnimpl, resolve_setLatch]
    exact congrArg _ (unlessSkipped_setLatch (commit_setLatch (form_base_ne_zero hi) _ _ _ _ _))
  | ext e b =>
    cases (exec_ext hi s).symm.trans hexec
    rw [exec_ext hi]
    simp only [resolveExt, fetched_setLatch_setUnimpl, resolve_setLatch]
    exact congrArg _ (unlessSkipped_setLatch (effectOf_setLatch _ _ _ _ _))

/-! ### The overflow register (R37) -/

theorem resolve_setO {x : Operand} (hx : x ≠ .o) (s : State) (v : Word) :
    resolve x (s.setO v) = ((resolve x s).1, (resolve x s).2.setO v) := by
  cases x with
  | o => exact absurd rfl hx
  | _ => rfl

theorem fetched_setO (w : Word) (s : State) (v : Word) : fetched w (s.setO v) = (fetched w s).setO v := rfl

theorem resolveBase_setO {a b : Operand} (ha : a ≠ .o) (hb : b ≠ .o) (op : BitVec 4) (s : State) (v : Word) :
    resolveBase op a b (s.setO v) = { resolveBase op a b s with after := (resolveBase op a b s).after.setO v } := by
  simp only [resolveBase, fetched_setO, resolve_setO ha, resolve_setO hb]

theorem resolveExt_setO {b : Operand} (hb : b ≠ .o) (e : BitVec 6) (s : State) (v : Word) :
    resolveExt e b (s.setO v) = ((resolveExt e b s).1, (resolveExt e b s).2.setO v) := by
  rw [resolveExt, fetched_setO, resolve_setO hb, resolveExt]

theorem store_setO {loc : Loc} (hloc : loc ≠ .reg .o) (x : Word) (s : State) (v : Word) :
    store loc x (s.setO v) = (store loc x s).setO v := by
  cases loc with
  | reg r =>
    cases r with
    | o => exact absurd rfl hloc
    | _ => rfl
  | mem a => rfl
  | none => rfl

/-- The execute stage of a base instruction that does not write back to `O` commutes with a write of `O`, or overwrites
it where the opcode gives an overflow word. -/
theorem commit_setO {op : BitVec 4} (hop : op ≠ 0#4) {loc : Loc} (hloc : loc ≠ .reg .o) (x y : Word) (s : State)
    (v : Word) :
    commit (aluOf op x y) loc (s.setO v) = (commit (aluOf op x y) loc s).setO v ∧
      (commit (aluOf op x y) loc s).o = s.o ∨
    commit (aluOf op x y) loc (s.setO v) = commit (aluOf op x y) loc s ∧ writesOverflow op = true := by
  rcases aluOf_shape op x y hop with ⟨-, -, -, w, h⟩ | ⟨-, hov, -, w, o, h⟩ | ⟨-, -, -, c, h⟩ <;> rw [h]
  · exact .inl ⟨store_setO hloc w s v, readReg_store_of_ne hloc w s⟩
  · refine .inr ⟨?_, hov⟩
    rw [commit_withOverflow, commit_withOverflow, store_setO hloc]
    rfl
  · exact .inl (by cases c <;> exact ⟨rfl, rfl⟩)

theorem raiseUnimplemented_setO (w : Word) (s : State) (v : Word) :
    raiseUnimplemented w (s.setO v) = (raiseUnimplemented w s).setO v := by
  unfold raiseUnimplemented
  rw [setO_policy]
  cases s.policy <;> rfl

theorem effectOf_setO (e m : BitVec 6) (x : Word) (s : State) (v : Word) :
    effectOf e m x (s.setO v) = (effectOf e m x s).setO v ∧ (effectOf e m x s).o = s.o := by
  unfold effectOf
  split
  · exact ⟨rfl, rfl⟩
  · obtain ⟨-, -, -, ho, -⟩ := raiseUnimplemented_keeps (encExt e m) s
    exact ⟨raiseUnimplemented_setO _ s v, ho⟩

section
variable {i : Instr} {s t : State} (hexec : exec i s = .next t) (v : Word)
include hexec

theorem exec_base_setO {op : BitVec 4} {a b : Operand} (hi : i.form = .base op a b) (ha : a ≠ .o) (hb : b ≠ .o) :
    exec i (s.setO v) = .next (t.setO v) ∧ t.o = s.o ∨
      exec i (s.setO v) = .next t ∧ s.skip = false ∧ writesOverflow op = true := by
  obtain ⟨-, -, ho, -⟩ := resolveBase_fields op a b s
  have hresolve := resolveBase_setO ha hb op s v
  cases hskip : s.skip with
  | true =>
    cases (exec_base_of_skip hskip hi).symm.trans hexec
    rw [exec_base_of_skip (s := s.setO v) hskip hi, hresolve]
    exact .inl ⟨rfl, ho⟩
  | false =>
    cases (exec_base_of_not_skip hskip hi).symm.trans hexec
    rw [exec_base_of_not_skip (s := s.setO v) hskip hi, hresolve]
    have hloc : (resolveBase op a b s).ra.loc ≠ .reg .o := fun hl => ha (resolveBase_loc_eq_reg hl)
    rcases commit_setO (form_base_ne_zero hi) hloc _ _ _ v with ⟨hcommit, hkept⟩ | ⟨hcommit, hov⟩
    · exact .inl ⟨congrArg _ hcommit, hkept.trans ho⟩
    · exact .inr ⟨congrArg _ hcommit, rfl, hov⟩

theorem exec_ext_setO {e : BitVec 6} {b : Operand} (hi : i.form = .ext e b) (hb : b ≠ .o) :
    exec i (s.setO v) = .next (t.setO v) ∧ t.o = s.o := by
  obtain ⟨-, -, ho, -⟩ := resolveExt_fields e b s
  have hresolve := resolveExt_setO hb e s v
  cases hskip : s.skip with
  | true =>
    cases (exec_ext_of_skip hskip hi).symm.trans hexec
    rw [exec_ext_of_skip (s := s.setO v) hskip hi, hresolve]
    exact ⟨rfl, ho⟩
  | false =>
    cases (exec_ext_of_not_skip hskip hi).symm.trans hexec
    rw [exec_ext_of_not_skip (s := s.setO v) hskip hi, hresolve]
    obtain ⟨heffect, hkept⟩ := effectOf_setO e b.mode (resolveExt e b s).1.value (resolveExt e b s).2 v
    exact ⟨congrArg _ heffect, hkept.trans ho⟩

end

/-- Settles O41: a skipped tick resolves only; an executed one commutes with the write of `O` or overwrites it. -/
theorem oIsReadOnlyThroughItsMode : Obligations.OIsReadOnlyThroughItsMode := by
  intro i s t v hbase hext hexec
  cases hi : i.form with
  | base op a b =>
    obtain ⟨ha, hb⟩ := hbase op a b hi
    exact (exec_base_setO hexec v hi ha hb).imp_right fun ⟨hsame, hskip, hov⟩ => ⟨hsame, hskip, op, a, b, rfl, hov⟩
  | ext e b => exact .inl (exec_ext_setO hexec v hi (hext e b hi))

end Sys2Proof.Machine
end

/-! ## Proofs: image load, equal memories and the screen (20_memory.md)

R67 (LoadImage replaces memory only), the one canonical form of a memory, R66 (ReadScreen) and R73 (a read that overlaps
a tick). -/

section
namespace Sys2Proof.Machine

/-- Settles O49: the call is accepted, and its memory is the image. -/
theorem loadImageReplacesMemoryOnly : Obligations.LoadImageReplacesMemoryOnly := by
  intro s words ms hmoves hpaused hfits
  have hload : step s = .next ((s.setMoves ms).setMem (Memory.image 0 words)) :=
    (step_of_moves hmoves).trans (hostLoadImage_of_paused (s := s.setMoves ms) hpaused hfits)
  exact ⟨_, hload, rfl, Memory.wf_image words hfits, memRead_of_mem_image rfl⟩

/-! ### The canonical form (R60) -/

theorem Memory.wfFrom_cons (lo k : Nat) (w : Word) (m : Memory) :
    Memory.wfFrom lo ((k, w) :: m) = true ↔
      lo ≤ k ∧ k < Config.memWords ∧ w ≠ 0#16 ∧ Memory.wfFrom (k + 1) m = true := by
  simp [Memory.wfFrom, and_assoc]

/-- A canonical list that is not empty is canonical from its first key on. -/
theorem Memory.wfFrom_head {lo k : Nat} {w : Word} {m : Memory} (h : Memory.wfFrom lo ((k, w) :: m) = true) :
    Memory.wfFrom k ((k, w) :: m) = true := by
  obtain ⟨-, hrest⟩ := (Memory.wfFrom_cons lo k w m).mp h
  exact (Memory.wfFrom_cons k k w m).mpr ⟨le_refl k, hrest⟩

/-- Canonical memories that read the same do not differ below the first key of either. -/
theorem Memory.not_head_lt {m n : Memory} {lo hi k : Nat} {w : Word} (hm : Memory.wfFrom lo ((k, w) :: m) = true)
    (hn : n.wfFrom hi = true) (h : ∀ x < Config.memWords, Memory.get ((k, w) :: m) x = n.get x) : ¬ k < hi := by
  intro hlt
  obtain ⟨-, hk, hw, -⟩ := (Memory.wfFrom_cons lo k w m).mp hm
  have hread := h k hk
  rw [Memory.get_cons, if_pos rfl, Memory.get_of_lt hn hlt] at hread
  exact hw hread

/-- Canonical memories that read the same at every address are the same list. -/
theorem Memory.eq_of_get {m n : Memory} {lo lo' : Nat} (hm : m.wfFrom lo = true) (hn : n.wfFrom lo' = true)
    (h : ∀ x < Config.memWords, m.get x = n.get x) : m = n := by
  induction m generalizing n lo lo' with
  | nil =>
    cases n with
    | nil => rfl
    | cons c n =>
      obtain ⟨k, w⟩ := c
      exact absurd k.lt_succ_self (Memory.not_head_lt hn (n := []) rfl fun x hx => (h x hx).symm)
  | cons c m ih =>
    obtain ⟨k, w⟩ := c
    obtain ⟨-, hk, -, htail⟩ := (Memory.wfFrom_cons lo k w m).mp hm
    cases n with
    | nil => exact absurd k.lt_succ_self (Memory.not_head_lt hm (n := []) rfl h)
    | cons c' n =>
      obtain ⟨k', w'⟩ := c'
      obtain ⟨-, -, -, htail'⟩ := (Memory.wfFrom_cons lo' k' w' n).mp hn
      have hle : k' ≤ k := not_lt.mp (Memory.not_head_lt hm (Memory.wfFrom_head hn) h)
      have hge : k ≤ k' := not_lt.mp (Memory.not_head_lt hn (Memory.wfFrom_head hm) fun x hx => (h x hx).symm)
      obtain rfl := le_antisymm hge hle
      have hhead : w = w' := by simpa [Memory.get_cons] using h k hk
      have hrest : ∀ x < Config.memWords, Memory.get m x = Memory.get n x := fun x hx => by
        by_cases hlt : x < k + 1
        · rw [Memory.get_of_lt htail hlt, Memory.get_of_lt htail' hlt]
        · simpa [Memory.get_cons, show ¬ k = x by omega] using h x hx
      rw [hhead, ih htail htail' hrest]

/-- Settles O53: the addresses are the numbers below 65536. -/
theorem canonicalMemoriesAreEqualData : Obligations.CanonicalMemoriesAreEqualData := by
  refine fun m n hm hn h => Memory.eq_of_get hm hn fun x hx => ?_
  have hread := h (BitVec.ofNat 16 x)
  rwa [BitVec.toNat_ofNat, Nat.mod_eq_of_lt (show x < 2 ^ 16 from hx)] at hread

/-! ### The screen window (R66, R73) -/

/-- Settles O55: each word of the window is the word of memory at its address. -/
theorem readScreenCopiesTheWindow : Obligations.ReadScreenCopiesTheWindow := fun s =>
  ⟨length_readScreen s, fun _ hk => (getElem?_readScreen s hk).trans (congrArg some (screenWord_eq_memRead hk s))⟩

/-- Settles O56: an admitted word is that of the state before the tick or of the one after, and the two differ only
where the tick stores. -/
theorem screenFrameOverlappingATick : Obligations.ScreenFrameOverlappingATick := by
  intro s t hdue hen hstep
  have hrun : IsRun [s, t] := List.isChain_pair.mpr hstep
  refine ⟨readScreen_admitted hrun (by simp), readScreen_admitted hrun (by simp), fun frame k hframe hk => ?_⟩
  obtain ⟨u, hu, hword⟩ := hframe.word hk
  rw [screenWord_eq_memRead hk] at hword
  rcases List.mem_pair.mp hu with rfl | rfl
  · exact .inl hword
  · by_cases hsame : memRead (BitVec.ofNat 16 (0xE000 + k)) u = memRead (BitVec.ofNat 16 (0xE000 + k)) s
    · exact .inl (hword.trans (congrArg some hsame))
    · rcases onlyOneStoreOrAnImageLoadChangesMemory s u _ hstep hsame with hload | ⟨-, -, hstore⟩
      · exact absurd hload (not_imageLoadDue_of_engineDue hdue)
      · exact .inr ⟨hword, hstore⟩

end Sys2Proof.Machine
end

/-! ## Proofs: instructions together (20_memory.md section 4, 41_set_arith.md, 44_extended.md)

A push and a pop, a call and its return, and a store that the next fetch sees: the rule of the first instruction gives
the word that the second one reads. -/

section
namespace Sys2Proof.Machine

section
variable {s t : State} (hskip : s.skip = false)
include hskip

/-- SET from POP to a register but SP: the register takes the word at SP, and SP moves up. -/
theorem exec_set_reg_pop {r : RegName} (hr : r ≠ .sp) (hexec : exec (.set r.operand .pop) s = .next t) :
    readReg t r = memRead s.sp s ∧ t.sp = s.sp + 1#16 := by
  have hloc : (resolveBase 0x1#4 r.operand .pop s).ra.loc = .reg r := by cases r <;> rfl
  have hvalue : (resolveBase 0x1#4 r.operand .pop s).rb.value = memRead s.sp s := by cases r <;> rfl
  have hshift : stackShift r.operand = 0#16 := by cases r <;> rfl
  obtain ⟨-, hsp, -⟩ := writeBackFrame _ _ _ _ s t rfl rfl hskip hexec
  refine ⟨(exec_set_to_reg hskip r hloc hexec).trans hvalue, ?_⟩
  rw [hsp (by simpa [hloc] using hr), hshift, BitVec.add_zero, stackShift]

/-- SET of a literal to memory at a literal: the word is stored there, and PC moves past three words. -/
theorem exec_set_mem_lit (hwf : s.mem.wf = true) {x v : Word} (hexec : exec (.set (.mem x) (.lit v)) s = .next t) :
    memRead x t = v ∧ t.pc = s.pc + 3#16 := by
  obtain ⟨-, hmem⟩ := exec_set_to_mem hskip (x := x) hwf rfl hexec
  obtain ⟨-, -, -, hpc, -⟩ := writeBackFrame _ _ _ _ s t rfl rfl hskip hexec
  exact ⟨(hmem x).trans (if_pos rfl), hpc Loc.noConfusion⟩

/-- JSR leaves the address after itself at the new SP (R220). -/
theorem memRead_sp_of_exec_jsr (hwf : s.mem.wf = true) {b : Operand} (hexec : exec (.jsr b) s = .next t) :
    memRead t.sp t = s.pc + instrLength (.jsr b) := by
  obtain ⟨-, -, -, hmem, -⟩ := resolveExt_fields 0x01#6 b s
  cases (exec_jsr_of_not_skip hskip b).symm.trans hexec
  refine Eq.trans ?_ (resolveExt_pc (i := .jsr b) rfl s)
  exact (memRead_memWrite (by rwa [setSp_mem, hmem]) _ _ _).trans (if_pos rfl)

end

theorem stackShift_eq_zero {x : Operand} (hpop : x ≠ .pop) (hpush : x ≠ .push) : stackShift x = 0#16 := by
  cases x with
  | pop => exact absurd rfl hpop
  | push => exact absurd rfl hpush
  | _ => rfl

/-- Settles O57: the first instruction leaves the source's value at the new SP, where the second pops it. -/
theorem pushThenPopRoundTrip : Obligations.PushThenPopRoundTrip := by
  intro b q s t u hwf hskip hpop hpush ht hu
  obtain ⟨htsp, hmem⟩ := exec_set_to_mem hskip (x := s.sp - 1#16) hwf rfl ht
  obtain ⟨-, -, -, -, -, htskip, -⟩ := writeBackFrame _ _ _ _ s t rfl rfl hskip ht
  obtain ⟨hreg, husp⟩ := exec_set_reg_pop (r := .gp q) htskip (by simp) hu
  have hslot : t.sp = s.sp - 1#16 := by
    rw [htsp, stackShift_eq_zero hpop hpush, stackShift]
    bv_omega
  refine ⟨hreg.trans ((hmem _).trans (if_pos hslot)), ?_⟩
  rw [husp, hslot]
  exact BitVec.sub_add_cancel _ _

/-- Settles O58: JSR leaves the return address at the new SP, where the second instruction pops it. -/
theorem jsrThenReturnRoundTrip : Obligations.JsrThenReturnRoundTrip := by
  intro b s t u hwf hskip ht hu
  obtain ⟨-, -, htsp, -, htskip, -⟩ := jsrFrame b s t hskip ht
  obtain ⟨hpc, husp⟩ := exec_set_reg_pop (r := .pc) htskip (by simp) hu
  refine ⟨hpc.trans (memRead_sp_of_exec_jsr hskip hwf ht), ?_⟩
  rw [husp, htsp]
  exact BitVec.sub_add_cancel _ _

/-- Settles O59: the stored word stands where PC ends, and PC ends there whatever is stored. -/
theorem storesAreSeenByTheNextFetch : Obligations.StoresAreSeenByTheNextFetch := by
  intro v s t hwf hskip
  refine ⟨fun hexec => ?_, exec_set_mem_lit hskip hwf⟩
  obtain ⟨hstored, hpc⟩ := exec_set_mem_lit hskip hwf hexec
  rw [fetchInstr, word_decodeAt, hpc, hstored]

end Sys2Proof.Machine
end
